-- ==== Sys2Proof/Word.lean ====
section
/-! DEFINITION. The word types of the CDH-7240 and the four-voice container. -/

namespace Sys2Proof

/-- One byte of a command record, a reply record or a chord line character. -/
abbrev Byte := BitVec 8

/-- One 24-bit audio sample, two's complement (section 1.9.1, Table 10.3). -/
abbrev Sample := BitVec 24

/-- One 32-bit audio slot word as it stands on the wire (Table 10.3). -/
abbrev SlotWord := BitVec 32

/-- A set of pitch classes: bit `i` is pitch class `i` (Table 10.3, "Member set"). -/
abbrev PitchSet := BitVec 12

/-- Four like things, one for each voice 0 to 3. -/
structure Quad (α : Type) where
  v0 : α
  v1 : α
  v2 : α
  v3 : α
  deriving DecidableEq, Repr

/-- The item of voice `n`. -/
def Quad.get {α : Type} (q : Quad α) : Fin 4 → α
  | 0 => q.v0
  | 1 => q.v1
  | 2 => q.v2
  | 3 => q.v3

/-- Apply `f` to every voice's item, with its voice number. -/
def Quad.mapIdx {α β : Type} (f : Fin 4 → α → β) (q : Quad α) : Quad β :=
  ⟨f 0 q.v0, f 1 q.v1, f 2 q.v2, f 3 q.v3⟩

/-- Apply `f` to every voice's item. -/
def Quad.map {α β : Type} (f : α → β) (q : Quad α) : Quad β :=
  ⟨f q.v0, f q.v1, f q.v2, f q.v3⟩

/-- Replace the item of voice `n` by `f` of it. -/
def Quad.update {α : Type} (q : Quad α) (n : Fin 4) (f : α → α) : Quad α :=
  q.mapIdx fun i x => if i = n then f x else x

/-- The four items in voice order. -/
def Quad.toList {α : Type} (q : Quad α) : List α := [q.v0, q.v1, q.v2, q.v3]

end Sys2Proof
end

