-- ==== Sys2Proof/Config.lean ====
section
/-! DEFINITION. What the manual leaves open: constants with no body, so that no proof can see their values. -/

namespace Sys2Proof

/-- The shifted sample the shifter forms for a voice, by draw number, voice, and what the shifter has taken, newest frame
first: the vocal as the dry delay line gave it, the applied ratio code, and the grain timer (R141: "Beyond the applied
ratio code and the grain boundaries, this manual does not specify how the shifter forms the shifted sample"). DESIGN
CHOICE, safe; log entry 3. -/
opaque Config.shiftedSample : Nat → Nat → List (Sample × Nat × Nat) → Int

/-- Whether a voice that a fade step has made IDLE still carries the ramp of that step, from 1/8 to 0 over 256 frames: R139
gives the ramp, and R141 and Table 8.5 give every IDLE voice gain 0. DESIGN CHOICE, safe; log entry 24. -/
opaque Config.idleRamps : Bool

/-- Whether a product or sum that is no whole number is rounded up, by draw number and output slot (R141 and R142
name no rounding). DESIGN CHOICE, safe; log entry 3. -/
opaque Config.roundsUp : Nat → Nat → Bool

/-- What a presence byte other than 0 and 1 means in a command, by command code and byte (R166 gives 0 and 1
only). DESIGN CHOICE, safe; log entry 4. -/
opaque Config.otherMark : Byte → Byte → Bool

/-- What a plan's follow byte other than "yes" and "no" means (R47 does not check the field). DESIGN CHOICE, safe;
log entry 4. -/
opaque Config.otherFollow : Byte → Bool

end Sys2Proof
end

