-- ==== Sys2Proof/Syntax.lean ====
section
/-! DEFINITION. The commands of the CDH-7240: one constructor of `Instr` for each row of the table of
operations and events (spec/opcode_table.json). A command carries what the outside delivers with it: the
raw bytes of a command record's fields, the bits sampled on a pin, the length of a transfer. -/

namespace Sys2Proof

/-- The manual sources (Table 1.5). -/
inductive Manual where
  | panel
  | stage
  | desk
  deriving DecidableEq, Repr

/-- The two select inputs of the setup port (section 10.1.1). -/
inductive Select where
  | psel
  | dsel
  deriving DecidableEq, Repr

/-- The reply codes of Table 10.2. -/
inductive ReplyCode where
  | done
  | accepted
  | outranked
  | range
  | empty
  | notPermitted
  | busy
  | ended
  | format
  | faultActive
  | unknown
  | notReady
  | none
  deriving DecidableEq, Repr

/-- The result of the pitch tracker's period search, which the manual leaves open (R16): no period, or a
period in 1/16 sample and a confidence. -/
inductive Analysis where
  | noPeriod
  | found (p16 : Nat) (confidence : Nat)
  deriving DecidableEq, Repr

/-- Where the renderer's glide steps and requested shifts of a hop stand among the hop's other effects. The
manual leaves the order open (R132, R133): before the report is handled, after it, or after the events that
the report brings about. -/
inductive RenderOrder where
  | first
  | afterReport
  | last
  deriving DecidableEq, Repr

/-- What ends a transfer of the stage port: its STOP, or a repeated START (R161, R162, R163). -/
inductive TransferEnd where
  | stop
  | repeatedStart
  deriving DecidableEq, Repr

/-- A write transfer of the stage port as its end shows it: every byte the controller offered, and what ended it (R162). -/
structure WriteTransfer where
  bytes : List Byte
  ending : TransferEnd
  deriving DecidableEq, Repr

/-- A read transfer of the stage port as its end shows it: how many bytes the controller read, and what ended it (R163). -/
structure ReadTransfer where
  count : Nat
  ending : TransferEnd
  deriving DecidableEq, Repr

/-- The chord bytes of SETCHORD and of a cue step record: kind, root, shape slot, bass mark, bass (R59, R146). -/
structure ChordBytes where
  kind : Byte
  root : Byte
  shape : Byte
  bassMark : Byte
  bass : Byte
  deriving DecidableEq, Repr

/-- The plan bytes of LOADPLAN, in the order of Table 3.4 (R47, R166). -/
structure PlanBytes where
  mode : Byte
  amount : Byte
  low : Byte
  high : Byte
  follow : Byte
  glide : Byte
  level : Byte
  fallbackMark : Byte
  fallback : Byte
  deriving DecidableEq, Repr

/-- The eight settings of TRACKER, in the order of Table 2.1 (R21). -/
structure TrackerBytes where
  trim : Byte
  low : BitVec 16
  high : BitVec 16
  gate : Byte
  confidence : Byte
  hysteresis : Byte
  settle : Byte
  release : Byte
  deriving DecidableEq, Repr

/-- The four settings of RATE (R13). -/
structure RateBytes where
  mode : Byte
  method : Byte
  minimum : BitVec 24
  maximum : BitVec 24
  deriving DecidableEq, Repr

/-- The settings of CHORDLINE without the enable (Table 5.2, R79). -/
structure LineBytes where
  baud : Byte
  parity : Byte
  stale : Byte
  lost : Byte
  breakAction : Byte
  deriving DecidableEq, Repr

/-- The three settings of KEYTRACK (R106). -/
structure KeytrackBytes where
  decay : BitVec 16
  margin : Byte
  minTotal : BitVec 16
  deriving DecidableEq, Repr

/-- A cue step record as CUELOAD carries it (Table 9.1, R146, R166). -/
structure CueBytes where
  keyMark : Byte
  key : Byte
  scaleMark : Byte
  scale : Byte
  chord : ChordBytes
  setMask : Byte
  clearMask : Byte
  advance : Byte
  count : BitVec 16
  bindings : List (Byte × Byte)
  deriving DecidableEq, Repr

/-- The commands: the rows of the table of operations and events. -/
inductive Instr where
  /-- POWER_ON (R15): RESETN is asserted and released; `sa` is SA1:SA0 at its release (R161). -/
  | powerOn (sa : BitVec 2)
  /-- FRAME_SYNC (R1): a frame begins; `word` is its input slot 0 word and `bits` the bit clocks of the frame. -/
  | frameSync (word : SlotWord) (bits : Nat)
  /-- FRAME_ABSENCE (R4): the absence timer reaches 1,024 ticks. -/
  | frameAbsence
  /-- MEASUREMENT (R5): a run of 256 frames completes with `ticks` REFCLK ticks. `analysis` is the period
  search's result and `order` the open order of the renderer's hop work, should the measurement issue a hop. -/
  | measurement (ticks : Nat) (analysis : Analysis) (order : RenderOrder)
  /-- FADE_STEP_COUNT (R139). -/
  | fadeStepCount
  /-- GRAIN_BOUNDARY (R136) of one voice. -/
  | grainBoundary (voice : Fin 4)
  /-- SETTLE_COMPLETE (R29): the note start of a completed settle count. -/
  | settleComplete
  /-- RELEASE_COMPLETE (R34): the note-off of a completed release count. -/
  | releaseComplete
  /-- LEARN_COMPLETE (R25). -/
  | learnComplete
  /-- DECAY_EVENT (R101). -/
  | decayEvent
  /-- DWELL_EXPIRY (R154). -/
  | dwellExpiry
  /-- HOWL_DECLARED (R173). -/
  | howlDeclared
  /-- RECOVERY_COMPLETE (R176). -/
  | recoveryComplete
  /-- CHARACTER (R76): the three samples of each bit of a character, bit 0 the start bit (R75). -/
  | character (s1 s2 s3 : BitVec 12)
  /-- MATCH_END (R93). -/
  | matchEnd
  /-- BREAK (R78). -/
  | lineBreak
  /-- SILENCE_THRESHOLD (R88). -/
  | silenceThreshold
  /-- TIME_OUT (R164): the time-out counter has reached its limit. -/
  | timeOut
  /-- FETCH (R159): `clocked` is how many complete bytes follow the H'00. -/
  | fetch (sel : Select) (clocked : Nat)
  /-- COMMAND_TRANSACTION (R160): the select's release, with every complete byte clocked in. -/
  | commandTransaction (sel : Select) (bytes : List Byte)
  /-- REFUSED_TRANSACTION (R158): the release of a refused select. -/
  | refusedTransaction (sel : Select)
  /-- STAGE_WRITE (R162): the end of a write transfer, with every byte the controller offered. -/
  | stageWrite (offered : WriteTransfer)
  /-- STAGE_READ (R163): the end of a read transfer, with the count of bytes the controller read. -/
  | stageRead (count : ReadTransfer)
  | setkey (src : Manual) (tonic pin : Byte)
  | setscale (src : Manual) (slot pin : Byte)
  | setchord (src : Manual) (pin : Byte) (chord : ChordBytes)
  | unpin (src : Manual) (field : Byte)
  | switchesPut (src : Manual) (arg : Byte)
  | switchesSet (src : Manual) (arg : Byte)
  | switchesClear (src : Manual) (arg : Byte)
  | locksw (src : Manual) (mask : Byte)
  | hush (src : Manual)
  | resume (src : Manual)
  | cuenext (src : Manual)
  | cueprev (src : Manual)
  | cuegoto (src : Manual) (step : Byte)
  | cuestop (src : Manual)
  | cueload (src : Manual) (step : Byte) (record : CueBytes)
  | cuelen (src : Manual) (length wrap : Byte)
  | loadscale (src : Manual) (slot : Byte) (members : BitVec 16) (rule : Byte)
  | loadshape (src : Manual) (slot : Byte) (members : BitVec 16)
  | loadplan (src : Manual) (slot : Byte) (plan : PlanBytes) (adoption : Byte)
  | bind (src : Manual) (voice slot adoption : Byte)
  | tracker (src : Manual) (settings : TrackerBytes)
  | learn (src : Manual) (method : Byte)
  /-- RATE with action NONE (R13). -/
  | rate (src : Manual) (settings : RateBytes)
  /-- RATE with action REMEASURE (R14). -/
  | remeasure (src : Manual) (settings : RateBytes)
  | chordline (src : Manual) (settings : LineBytes) (enable : Byte)
  /-- CHORDLINE with the enable off (R79, R80). -/
  | lineDisable (src : Manual) (settings : LineBytes)
  /-- CHORDLINE with the enable on (R79, R80). -/
  | lineEnable (src : Manual) (settings : LineBytes)
  /-- KEYTRACK with action KEEP (R106). -/
  | keytrack (src : Manual) (settings : KeytrackBytes)
  /-- KEYTRACK with action CLEAR (R106). -/
  | keytrackClear (src : Manual) (settings : KeytrackBytes)
  | howl (src : Manual) (enable : Byte) (window : BitVec 16)
  | twowire (src : Manual) (timeout : Byte)
  | clearfault (src : Manual)
  | ackflags (src : Manual) (mask : BitVec 16)
  | restart (src : Manual)
  | readstatus (src : Manual)
  | readcontext (src : Manual)
  | readvoice (src : Manual) (voice : Byte)
  | readcue (src : Manual) (mark step : Byte)
  | readtable (src : Manual) (table slot : Byte)
  | readkeytrk (src : Manual)
  /-- FALSE_START (R75): the three samples of a start bit. -/
  | falseStart (s1 s2 s3 : Bool)
  /-- SELECT_ASSERTION (R158). -/
  | selectAssertion (sel : Select)
  /-- START_CONDITION (R161): a START followed by its address byte. -/
  | startCondition (address : Byte)
  deriving DecidableEq, Repr

end Sys2Proof
end

