-- ==== Sys2Proof/WellFormed.lean ====
section
/-! DEFINITION. Which commands the outside can deliver: the shapes and ranges that the pins and the period
search impose on a command's operands. The machine gives every command a next state; these checks say which
operands stand for something that can happen. -/

namespace Sys2Proof

/-- The majority of three samples (R75). -/
def majority (a b c : Bool) : Bool := (a && b) || (a && c) || (b && c)

/-- R16: the search yields a period of 32 to 32,768 sixteenths with confidence 1 to 15, or none. -/
def Analysis.wellFormed : Analysis → Bool
  | .noPeriod => true
  | .found p c => decide (32 ≤ p ∧ p ≤ 32768 ∧ 1 ≤ c ∧ c ≤ 15)

/-- The checks on a command's operands.
* MEASUREMENT: the analysis is one the search can yield (R16).
* CHARACTER: the start bit's majority is low; otherwise the edge is a false start (R75).
* FALSE_START: the start bit's majority is high (R75).
* COMMAND_TRANSACTION: the first complete byte is not H'00, which makes a FETCH (R158).
* CUELOAD: a record holds at most 7 binding pairs (n is at most 30, Table 10.1). -/
def Instr.wellFormed : Instr → Bool
  | .measurement _ a _ => a.wellFormed
  | .character s1 s2 s3 => !majority (s1.getLsbD 0) (s2.getLsbD 0) (s3.getLsbD 0)
  | .falseStart s1 s2 s3 => majority s1 s2 s3
  | .commandTransaction _ bytes => bytes.head? != some 0#8
  | .cueload _ _ r => decide (r.bindings.length ≤ 7)
  | _ => true

end Sys2Proof
end

