-- ==== Sys2Proof/Decode.lean ====
section
/-! DEFINITION. The command decoder's reading of records (Table 10.1, R166, R167), the matching encoder, and
`decodeTableWord`. No row of spec/opcode_table.json gives bits, so no table word spells a command. -/

namespace Sys2Proof

/-- The 34 commands of Table 10.1. -/
inductive Cmd where
  | setkey
  | setscale
  | setchord
  | unpin
  | switches
  | locksw
  | hush
  | resume
  | cuenext
  | cueprev
  | cuegoto
  | cuestop
  | cueload
  | cuelen
  | loadscale
  | loadshape
  | loadplan
  | bind
  | tracker
  | learn
  | rate
  | chordline
  | keytrack
  | howl
  | twowire
  | clearfault
  | ackflags
  | restart
  | readstatus
  | readcontext
  | readvoice
  | readcue
  | readtable
  | readkeytrk
  deriving DecidableEq, Repr

/-- Every command of Table 10.1, in its order. -/
def Cmd.all : List Cmd :=
  [.setkey, .setscale, .setchord, .unpin, .switches, .locksw, .hush, .resume,
   .cuenext, .cueprev, .cuegoto, .cuestop, .cueload, .cuelen, .loadscale, .loadshape,
   .loadplan, .bind, .tracker, .learn, .rate, .chordline, .keytrack, .howl,
   .twowire, .clearfault, .ackflags, .restart, .readstatus, .readcontext, .readvoice, .readcue,
   .readtable, .readkeytrk]

/-- Table 10.1, "Code". -/
def Cmd.code : Cmd → Byte
  | .setkey => 0x10#8
  | .setscale => 0x11#8
  | .setchord => 0x12#8
  | .unpin => 0x13#8
  | .switches => 0x14#8
  | .locksw => 0x15#8
  | .hush => 0x16#8
  | .resume => 0x17#8
  | .cuenext => 0x20#8
  | .cueprev => 0x21#8
  | .cuegoto => 0x22#8
  | .cuestop => 0x23#8
  | .cueload => 0x24#8
  | .cuelen => 0x25#8
  | .loadscale => 0x30#8
  | .loadshape => 0x31#8
  | .loadplan => 0x32#8
  | .bind => 0x33#8
  | .tracker => 0x40#8
  | .learn => 0x41#8
  | .rate => 0x42#8
  | .chordline => 0x43#8
  | .keytrack => 0x44#8
  | .howl => 0x45#8
  | .twowire => 0x46#8
  | .clearfault => 0x50#8
  | .ackflags => 0x51#8
  | .restart => 0x52#8
  | .readstatus => 0x60#8
  | .readcontext => 0x61#8
  | .readvoice => 0x62#8
  | .readcue => 0x63#8
  | .readtable => 0x64#8
  | .readkeytrk => 0x65#8

/-- Table 10.1, "Sources". -/
def Cmd.sources : Cmd → List Manual
  | .setkey => [.panel, .stage, .desk]
  | .setscale => [.panel, .stage, .desk]
  | .setchord => [.panel, .stage, .desk]
  | .unpin => [.panel, .stage, .desk]
  | .switches => [.panel, .stage, .desk]
  | .locksw => [.desk]
  | .hush => [.panel, .stage, .desk]
  | .resume => [.panel, .stage, .desk]
  | .cuenext => [.panel, .stage, .desk]
  | .cueprev => [.panel, .stage, .desk]
  | .cuegoto => [.panel, .stage, .desk]
  | .cuestop => [.panel, .stage, .desk]
  | .cueload => [.panel]
  | .cuelen => [.panel]
  | .loadscale => [.panel]
  | .loadshape => [.panel]
  | .loadplan => [.panel]
  | .bind => [.panel, .stage, .desk]
  | .tracker => [.panel]
  | .learn => [.panel]
  | .rate => [.panel]
  | .chordline => [.panel]
  | .keytrack => [.panel]
  | .howl => [.panel]
  | .twowire => [.panel]
  | .clearfault => [.panel, .desk]
  | .ackflags => [.panel]
  | .restart => [.panel]
  | .readstatus => [.panel, .stage, .desk]
  | .readcontext => [.panel, .stage, .desk]
  | .readvoice => [.panel, .stage, .desk]
  | .readcue => [.panel, .stage, .desk]
  | .readtable => [.panel, .stage, .desk]
  | .readkeytrk => [.panel, .stage, .desk]

/-- Table 10.1, "n": the argument counts the command allows. -/
def Cmd.lengths : Cmd → List Nat
  | .setkey => [2]
  | .setscale => [2]
  | .setchord => [6]
  | .unpin => [1]
  | .switches => [2]
  | .locksw => [1]
  | .hush => [0]
  | .resume => [0]
  | .cuenext => [0]
  | .cueprev => [0]
  | .cuegoto => [1]
  | .cuestop => [0]
  | .cueload => [16, 18, 20, 22, 24, 26, 28, 30]
  | .cuelen => [2]
  | .loadscale => [4]
  | .loadshape => [3]
  | .loadplan => [11]
  | .bind => [3]
  | .tracker => [10]
  | .learn => [1]
  | .rate => [9]
  | .chordline => [6]
  | .keytrack => [6]
  | .howl => [3]
  | .twowire => [1]
  | .clearfault => [0]
  | .ackflags => [2]
  | .restart => [0]
  | .readstatus => [0]
  | .readcontext => [0]
  | .readvoice => [1]
  | .readcue => [2]
  | .readtable => [2]
  | .readkeytrk => [0]

/-- The command a code byte names, if any (Table 10.1). -/
def Cmd.ofCode? (b : Byte) : Option Cmd := Cmd.all.find? fun c => c.code == b

/-- Two argument bytes as one field, most significant byte first (R166). -/
def word16 (a b : Byte) : BitVec 16 := a ++ b

/-- Three argument bytes as one field, most significant byte first (R166). -/
def word24 (a b c : Byte) : BitVec 24 := a ++ b ++ c

/-- The bytes of a two-byte field, most significant first (R166). -/
def bytes16 (w : BitVec 16) : List Byte := [w.extractLsb' 8 8, w.extractLsb' 0 8]

/-- The bytes of a three-byte field, most significant first (R166). -/
def bytes24 (w : BitVec 24) : List Byte := [w.extractLsb' 16 8, w.extractLsb' 8 8, w.extractLsb' 0 8]

/-- The binding pairs of a CUELOAD record (R166); `none` when a byte is left over. -/
def pairsOf : List Byte → Option (List (Byte × Byte))
  | [] => some []
  | [_] => none
  | a :: b :: rest => (pairsOf rest).map ((a, b) :: ·)

/-- What the command decoder makes of a record: a command, or a refusal with its reply code. -/
inductive Decoded where
  | command (i : Instr)
  | refused (code : ReplyCode)
  deriving DecidableEq, Repr

/-- A CUELOAD record's arguments: 16 fixed bytes, the last the number of binding pairs, then the pairs (R166).
A count byte that differs from (n − 16) / 2 is refused with FORMAT (R167). -/
def decodeCueload (src : Manual) : List Byte → Decoded
  | step :: keyMark :: key :: scaleMark :: scale :: kind :: root :: shape :: bassMark :: bass :: setMask :: clearMask ::
      advance :: countHi :: countLo :: n :: rest =>
    match pairsOf rest with
    | some pairs =>
      if n.toNat = pairs.length then
        .command (.cueload src step ⟨keyMark, key, scaleMark, scale, ⟨kind, root, shape, bassMark, bass⟩, setMask, clearMask,
          advance, word16 countHi countLo, pairs⟩)
      else .refused .format
    | none => .refused .format
  | _ => .refused .format

/-- The arguments of a record whose code, source and length have passed. A SWITCHES form, a RATE action or a
KEYTRACK action outside its list is refused with RANGE here (R63, R13, R106): the owning block's other checks
give the same reply. -/
def decodeArgs (src : Manual) : Cmd → List Byte → Decoded
  | .setkey, [t, p] => .command (.setkey src t p)
  | .setscale, [k, p] => .command (.setscale src k p)
  | .setchord, [p, kind, root, shape, mark, bass] => .command (.setchord src p ⟨kind, root, shape, mark, bass⟩)
  | .unpin, [f] => .command (.unpin src f)
  | .switches, [form, arg] =>
    if form = 0#8 then .command (.switchesPut src arg)
    else if form = 1#8 then .command (.switchesSet src arg)
    else if form = 2#8 then .command (.switchesClear src arg)
    else .refused .range
  | .locksw, [m] => .command (.locksw src m)
  | .hush, [] => .command (.hush src)
  | .resume, [] => .command (.resume src)
  | .cuenext, [] => .command (.cuenext src)
  | .cueprev, [] => .command (.cueprev src)
  | .cuegoto, [k] => .command (.cuegoto src k)
  | .cuestop, [] => .command (.cuestop src)
  | .cueload, args => decodeCueload src args
  | .cuelen, [l, w] => .command (.cuelen src l w)
  | .loadscale, [k, a, b, r] => .command (.loadscale src k (word16 a b) r)
  | .loadshape, [k, a, b] => .command (.loadshape src k (word16 a b))
  | .loadplan, [k, mode, amount, low, high, follow, glide, level, mark, fallback, adoption] =>
    .command (.loadplan src k ⟨mode, amount, low, high, follow, glide, level, mark, fallback⟩ adoption)
  | .bind, [v, k, a] => .command (.bind src v k a)
  | .tracker, [trim, l1, l0, h1, h0, gate, conf, hyst, settle, release] =>
    .command (.tracker src ⟨trim, word16 l1 l0, word16 h1 h0, gate, conf, hyst, settle, release⟩)
  | .learn, [m] => .command (.learn src m)
  | .rate, [mode, method, a2, a1, a0, b2, b1, b0, action] =>
    if action = 0#8 then .command (.rate src ⟨mode, method, word24 a2 a1 a0, word24 b2 b1 b0⟩)
    else if action = 1#8 then .command (.remeasure src ⟨mode, method, word24 a2 a1 a0, word24 b2 b1 b0⟩)
    else .refused .range
  | .chordline, [baud, parity, stale, lost, action, enable] => .command (.chordline src ⟨baud, parity, stale, lost, action⟩ enable)
  | .keytrack, [d1, d0, m, t1, t0, action] =>
    if action = 0#8 then .command (.keytrack src ⟨word16 d1 d0, m, word16 t1 t0⟩)
    else if action = 1#8 then .command (.keytrackClear src ⟨word16 d1 d0, m, word16 t1 t0⟩)
    else .refused .range
  | .howl, [e, w1, w0] => .command (.howl src e (word16 w1 w0))
  | .twowire, [t] => .command (.twowire src t)
  | .clearfault, [] => .command (.clearfault src)
  | .ackflags, [m1, m0] => .command (.ackflags src (word16 m1 m0))
  | .restart, [] => .command (.restart src)
  | .readstatus, [] => .command (.readstatus src)
  | .readcontext, [] => .command (.readcontext src)
  | .readvoice, [v] => .command (.readvoice src v)
  | .readcue, [mark, step] => .command (.readcue src mark step)
  | .readtable, [t, k] => .command (.readtable src t k)
  | .readkeytrk, [] => .command (.readkeytrk src)
  | _, _ => .refused .format

/-- R167: the decoder's checks in their order, UNKNOWN, NOTPERMITTED, FORMAT, and the record's reading. -/
def decodeRecord (src : Manual) (code : Byte) (args : List Byte) : Decoded :=
  match Cmd.ofCode? code with
  | none => .refused .unknown
  | some c =>
    if src ∉ c.sources then .refused .notPermitted
    else if args.length ∉ c.lengths then .refused .format
    else decodeArgs src c args

/-- The source, command and argument bytes of a command that travels as a record; `none` for the events and for
LINE_DISABLE and LINE_ENABLE, whose records are CHORDLINE's. -/
def encodeArgs : Instr → Option (Manual × Cmd × List Byte)
  | .setkey src t p => some (src, .setkey, [t, p])
  | .setscale src k p => some (src, .setscale, [k, p])
  | .setchord src p c => some (src, .setchord, [p, c.kind, c.root, c.shape, c.bassMark, c.bass])
  | .unpin src f => some (src, .unpin, [f])
  | .switchesPut src a => some (src, .switches, [0#8, a])
  | .switchesSet src a => some (src, .switches, [1#8, a])
  | .switchesClear src a => some (src, .switches, [2#8, a])
  | .locksw src m => some (src, .locksw, [m])
  | .hush src => some (src, .hush, [])
  | .resume src => some (src, .resume, [])
  | .cuenext src => some (src, .cuenext, [])
  | .cueprev src => some (src, .cueprev, [])
  | .cuegoto src k => some (src, .cuegoto, [k])
  | .cuestop src => some (src, .cuestop, [])
  | .cueload src step r =>
    some (src, .cueload,
      [step, r.keyMark, r.key, r.scaleMark, r.scale, r.chord.kind, r.chord.root, r.chord.shape, r.chord.bassMark, r.chord.bass,
        r.setMask, r.clearMask, r.advance] ++ bytes16 r.count ++ [BitVec.ofNat 8 r.bindings.length] ++
        r.bindings.flatMap fun b => [b.1, b.2])
  | .cuelen src l w => some (src, .cuelen, [l, w])
  | .loadscale src k m r => some (src, .loadscale, k :: bytes16 m ++ [r])
  | .loadshape src k m => some (src, .loadshape, k :: bytes16 m)
  | .loadplan src k p a =>
    some (src, .loadplan, [k, p.mode, p.amount, p.low, p.high, p.follow, p.glide, p.level, p.fallbackMark, p.fallback, a])
  | .bind src v k a => some (src, .bind, [v, k, a])
  | .tracker src t =>
    some (src, .tracker, t.trim :: bytes16 t.low ++ bytes16 t.high ++ [t.gate, t.confidence, t.hysteresis, t.settle, t.release])
  | .learn src m => some (src, .learn, [m])
  | .rate src r => some (src, .rate, [r.mode, r.method] ++ bytes24 r.minimum ++ bytes24 r.maximum ++ [0#8])
  | .remeasure src r => some (src, .rate, [r.mode, r.method] ++ bytes24 r.minimum ++ bytes24 r.maximum ++ [1#8])
  | .chordline src l e => some (src, .chordline, [l.baud, l.parity, l.stale, l.lost, l.breakAction, e])
  | .keytrack src k => some (src, .keytrack, bytes16 k.decay ++ [k.margin] ++ bytes16 k.minTotal ++ [0#8])
  | .keytrackClear src k => some (src, .keytrack, bytes16 k.decay ++ [k.margin] ++ bytes16 k.minTotal ++ [1#8])
  | .howl src e w => some (src, .howl, e :: bytes16 w)
  | .twowire src t => some (src, .twowire, [t])
  | .clearfault src => some (src, .clearfault, [])
  | .ackflags src m => some (src, .ackflags, bytes16 m)
  | .restart src => some (src, .restart, [])
  | .readstatus src => some (src, .readstatus, [])
  | .readcontext src => some (src, .readcontext, [])
  | .readvoice src v => some (src, .readvoice, [v])
  | .readcue src m k => some (src, .readcue, [m, k])
  | .readtable src t k => some (src, .readtable, [t, k])
  | .readkeytrk src => some (src, .readkeytrk, [])
  | _ => none

/-- The command record of a command: its source, and the bytes on the wire, code byte first (Table 10.3). -/
def encodeRecord (i : Instr) : Option (Manual × List Byte) :=
  (encodeArgs i).map fun e => (e.1, e.2.1.code :: BitVec.ofNat 8 e.2.2.length :: e.2.2)

/-- No row of the table of operations and events gives bits, so no table word spells a command. -/
def decodeTableWord (_nbits _w : Nat) : Option Instr := none

end Sys2Proof
end

