-- ==== Sys2Proof/Machine/State.lean ====
section
/-! DEFINITION. The state of the CDH-7240, block by block (Table 1.2), and its power-on value. -/

namespace Sys2Proof.Machine

/-! ### Sources and context fields (sections 1.5, 4.1) -/

/-- The automatic sources (Table 1.5). -/
inductive Auto where
  | cue
  | chordline
  | keytrk
  deriving DecidableEq, Repr

/-- A source of a change to the harmony context (Table 1.5). -/
inductive Source where
  | manual (m : Manual)
  | auto (a : Auto)
  deriving DecidableEq, Repr

/-- The owner of a context field: RESET, or the source whose value is in force (R52). -/
inductive Owner where
  | reset
  | source (x : Source)
  deriving DecidableEq, Repr

/-- A shadow: a value an automatic source proposed while the pin stood, with that source (R52). -/
structure Shadow (α : Type) where
  value : α
  source : Auto
  deriving DecidableEq, Repr

/-- An arbitrated field of the harmony context (R52). -/
structure Field (α : Type) where
  value : α
  owner : Owner
  pin : Option Manual
  shadow : Option (Shadow α)
  deriving DecidableEq, Repr

/-- A chord record: root, shape slot and optional bass (R52). -/
structure Chord where
  root : Fin 12
  shape : Fin 16
  bass : Option (Fin 12)
  deriving DecidableEq, Repr

/-- The line condition (R88). -/
inductive LineCondition where
  | off
  | listening
  | active
  | stale
  | lost
  | broken
  deriving DecidableEq, Repr

/-- The context unit's state (chapter 4). The switch word and lock mask have the bits of Table 10.3. -/
structure Context where
  key : Field (Fin 12)
  scale : Field (Fin 8)
  chord : Field (Option Chord)
  switches : BitVec 8
  lockMask : BitVec 8
  hush : Option Manual
  lineCond : LineCondition
  deriving DecidableEq, Repr

/-! ### Audio serial port and rate monitor (chapter 1) -/

/-- An output frame: its eight slot words, slot 0 first, and how many of its bits were shifted out (R1, R2). -/
structure OutFrame where
  slots : List SlotWord
  sent : Nat
  deriving DecidableEq, Repr

/-- What the four shifters take at a frame: the vocal as the dry delay line gives it to output slot 0, and each voice's
applied ratio code and grain timer (R141). -/
structure ShifterFrame where
  vocal : Sample
  ratios : Quad Nat
  timers : Quad Nat
  deriving DecidableEq, Repr

/-- The audio serial port (R1 to R4), with what the shifters have taken from the dry delay line since it was last zeroed,
newest first (R141; log entry 23). -/
structure Asp where
  frames : Nat
  absenceRunning : Bool
  dry : List Sample
  adout : Option OutFrame
  vocal : List ShifterFrame
  deriving DecidableEq, Repr

/-- The rate states (Table 1.10). -/
inductive RateState where
  | unlocked
  | acquiring
  | locked
  | lost
  deriving DecidableEq, Repr

/-- The in-window measurement classes (Table 1.9). -/
inductive RateClass where
  | k48
  | k44
  | manual
  deriving DecidableEq, Repr

/-- The rate monitor's mode (R13). -/
inductive RateMode where
  | auto
  | manual
  deriving DecidableEq, Repr

/-- The rate monitor's method (R13). -/
inductive RateMethod where
  | track
  | hold
  deriving DecidableEq, Repr

/-- The rate monitor (R5 to R14). `run` is the measurement in progress: the frames counted since the frame sync
that began it. -/
structure Rate where
  state : RateState
  mode : RateMode
  method : RateMethod
  windowMin : Nat
  windowMax : Nat
  nrate : Nat
  acquisition : List Nat
  acquisitionClass : Option RateClass
  lockedClass : Option RateClass
  outCount : Nat
  remeasure : Option (List Nat)
  run : Option Nat
  causeRate : Bool
  deriving DecidableEq, Repr

/-! ### Pitch tracker and note decider (chapter 2) -/

/-- The tracker and note decider settings (Table 2.1). -/
structure TrackerSettings where
  trim : Int
  low : Nat
  high : Nat
  gate : Nat
  confidence : Nat
  hysteresis : Nat
  settle : Nat
  release : Nat
  deriving DecidableEq, Repr

/-- The gate learn methods (R23). -/
inductive LearnMethod where
  | peak
  | average
  deriving DecidableEq, Repr

/-- The learn record (section 2.2.1). -/
structure LearnRecord where
  method : LearnMethod
  count : Nat
  smallest : Nat
  largest : Nat
  sum : Nat
  deriving DecidableEq, Repr

/-- The pitch tracker's state: settings, learn record, analysis history oldest first (R16, R21, R23). -/
structure Tracker where
  settings : TrackerSettings
  learn : Option LearnRecord
  history : List Sample
  deriving DecidableEq, Repr

/-- The note decider's states with their records (Table 2.5). -/
inductive DeciderState where
  | silent
  | onset (candidate : Nat) (count : Nat)
  | held (note : Nat)
  | transition (note : Nat) (candidate : Nat) (count : Nat)
  | releasing (note : Nat) (count : Nat)
  deriving DecidableEq, Repr

/-- The note decider (R28). -/
structure Decider where
  state : DeciderState
  dev : Int
  deriving DecidableEq, Repr

/-- The sung-note events (section 2.3.2). -/
inductive NoteEvent where
  | noteOn (note : Nat)
  | noteChange (old : Nat) (new : Nat)
  | noteOff (note : Nat)
  deriving DecidableEq, Repr

/-! ### Table store (chapters 3 and 9) -/

/-- The out-of-scale rules (R38). -/
inductive ScaleRule where
  | parallel
  | lower
  | upper
  deriving DecidableEq, Repr

/-- A scale slot (R38). -/
structure ScaleSlot where
  members : PitchSet
  rule : ScaleRule
  deriving DecidableEq, Repr

/-- The plan modes (Table 3.4). -/
inductive PlanMode where
  | off
  | scalar
  | chordal
  | fixed
  | drone
  deriving DecidableEq, Repr

/-- A plan record (Table 3.4). -/
structure Plan where
  mode : PlanMode
  amount : Int
  low : Nat
  high : Nat
  follow : Bool
  glide : Nat
  level : Nat
  fallback : Option Int
  deriving DecidableEq, Repr

/-- A cue step's advance condition (Table 9.1). -/
inductive Advance where
  | manual
  | onsets (n : Nat)
  | dwell (h : Nat)
  deriving DecidableEq, Repr

/-- A cue step (Table 9.1). The outer option of `chord` is the field's presence. -/
structure CueStep where
  key : Option (Fin 12)
  scale : Option (Fin 8)
  chord : Option (Option Chord)
  setMask : BitVec 8
  clearMask : BitVec 8
  bindings : List (Fin 4 × Fin 16)
  advance : Advance
  deriving DecidableEq, Repr

/-- The table store: 8 scale slots, 16 shape slots, 16 plans, 64 cue steps, list length and WRAP. -/
structure Tables where
  scales : List ScaleSlot
  shapes : List PitchSet
  plans : List Plan
  cues : List CueStep
  cueLength : Nat
  wrap : Bool
  deriving DecidableEq, Repr

/-! ### Chord line and chord queue (chapter 5) -/

/-- The chord line bauds (Table 5.2). -/
inductive Baud where
  | b19200
  | b38400
  | b57600
  | b115200
  deriving DecidableEq, Repr

/-- The chord line parities (Table 5.2). -/
inductive Parity where
  | none
  | even
  | odd
  deriving DecidableEq, Repr

/-- The break actions (Table 5.2). -/
inductive BreakAction where
  | hold
  | clear
  deriving DecidableEq, Repr

/-- The chord line settings (Table 5.2). -/
structure LineSettings where
  baud : Baud
  parity : Parity
  stale : Nat
  lost : Nat
  breakAction : BreakAction
  enable : Bool
  deriving DecidableEq, Repr

/-- What the receiver waits for between characters: a falling edge, or first for CLIN to be high (R75, R76). -/
inductive RxWait where
  | edge
  | high
  deriving DecidableEq, Repr

/-- A character in the receive FIFO (R77). -/
structure LineChar where
  value : Byte
  marker : Bool
  framing : Bool
  parity : Bool
  gap : Bool
  deriving DecidableEq, Repr

/-- The chord line frame kinds (Table 5.3). -/
inductive FrameKind where
  | chord
  | notes
  | key
  | clear
  | alive
  deriving DecidableEq, Repr

/-- The frame assembler (section 5.2.2). -/
inductive Assembler where
  | hunt
  | frame (kind : FrameKind) (count : Nat) (data : List Byte)
  | matching
  deriving DecidableEq, Repr

/-- The chord line receiver (R75 to R90). -/
structure Line where
  settings : LineSettings
  wait : RxWait
  fifo : List LineChar
  gapPending : Bool
  assembler : Assembler
  silence : Nat
  frameSeen : Bool
  broken : Bool
  cond : LineCondition
  deriving DecidableEq, Repr

/-- The apply-at field of a chord line frame (Table 5.3). -/
inductive ApplyAt where
  | now
  | onset
  | phrase
  deriving DecidableEq, Repr

/-- The match in progress: the frame's apply-at and notes, the shape table as the match began, and whether a
flush has discarded its result (R91, R93). -/
structure Match where
  applyAt : ApplyAt
  notes : List Nat
  shapes : List PitchSet
  discarded : Bool
  deriving DecidableEq, Repr

/-- The trigger of a chord queue entry (R94). -/
inductive Trigger where
  | onset
  | phrase
  deriving DecidableEq, Repr

/-- A chord queue entry (R94). -/
structure QueueEntry where
  value : Option Chord
  trigger : Trigger
  deriving DecidableEq, Repr

/-! ### Key tracker (chapter 6) -/

/-- The evaluation outcomes (Table 6.2). -/
inductive KeyOutcome where
  | same
  | lowTotal
  | margin
  | switchOff
  | proposed
  deriving DecidableEq, Repr

/-- The evaluation record (R105). -/
structure Evaluation where
  current : Fin 12
  scale : Fin 8
  best : Fin 12
  bestScore : Int
  currentScore : Int
  total : Nat
  margin : Nat
  outcome : KeyOutcome
  deriving DecidableEq, Repr

/-- The key tracker (R98). -/
structure KeyTracker where
  acc : List Nat
  counter : Nat
  decay : Nat
  margin : Nat
  minTotal : Nat
  evaluation : Option Evaluation
  deriving DecidableEq, Repr

/-! ### Voice resolver and renderer (chapters 7 and 8) -/

/-- A staged plan with its origin (R109). -/
structure Staged where
  plan : Plan
  origin : Fin 16
  deriving DecidableEq, Repr

/-- The basis paths (R127). -/
inductive BasisPath where
  | scalar
  | chordal
  | fallback
  | noChord
  | fixed
  | drone
  | off
  deriving DecidableEq, Repr

/-- The basis folds (R127). -/
inductive BasisFold where
  | none
  | octave
  | edge
  deriving DecidableEq, Repr

/-- The record of how the last resolution reached its result (R127). -/
structure Basis where
  path : BasisPath
  fold : BasisFold
  deriving DecidableEq, Repr

/-- The voice resolver's record of one voice (R109). -/
structure VoiceRecord where
  binding : Fin 16
  plan : Plan
  staged : Option Staged
  target : Option Nat
  goal : Option Int
  basis : Option Basis
  deriving DecidableEq, Repr

/-- The renderer states (Table 8.5). -/
inductive RenderState where
  | idle
  | rising
  | sounding
  | falling
  deriving DecidableEq, Repr

/-- A glide record (Table 8.1). -/
structure Glide where
  start : Int
  goal : Int
  remaining : Nat
  length : Nat
  deriving DecidableEq, Repr

/-- The renderer's record of one voice (Table 8.1), with the renderer's copy of the voice's enable (R129), the
fade position before the last fade step (f_old of R139), and whether the last frame brought a grain boundary
that has not been taken. -/
structure RenderRecord where
  state : RenderState
  fade : Nat
  fadeOld : Nat
  enable : Bool
  hasTarget : Bool
  interval : Option Int
  glide : Option Glide
  requested : Option Int
  pending : Option Int
  applied : Int
  ratio : Nat
  timer : Nat
  boundaryDue : Bool
  deriving DecidableEq, Repr

/-- One harmony voice: the resolver's record and the renderer's record. -/
structure Voice where
  res : VoiceRecord
  ren : RenderRecord
  deriving DecidableEq, Repr

/-- The resolver's context copy (R109). The usable chord's bass stands for itself: an absent bass is the root. -/
structure ContextCopy where
  tonic : Fin 12
  scale : Fin 8
  chord : Option Chord
  switches : BitVec 8
  deriving DecidableEq, Repr

/-- The grain modes (R135). -/
inductive GrainMode where
  | period
  | fixed
  deriving DecidableEq, Repr

/-- The renderer's state common to the four voices: grain mode and length (R135), fade-step count (R139), and
the frames since the last fade step (n of R139). -/
structure Renderer where
  grainMode : GrainMode
  grainLength : Nat
  fadeCount : Nat
  ramp : Nat
  deriving DecidableEq, Repr

/-! ### Cue unit (chapter 9) -/

/-- The cue unit (R148). -/
structure CueUnit where
  cursor : Option (Fin 64)
  counter : Nat
  running : Bool
  entered : Advance
  deriving DecidableEq, Repr

/-! ### Ports (chapter 10) -/

/-- A reply record (Table 10.3). -/
structure Reply where
  command : Byte
  code : ReplyCode
  data : List Byte
  deriving DecidableEq, Repr

/-- The stage port's transfer in progress: none, a write, or a read of the slot as it stood when the address was
acknowledged (R161 to R163). -/
inductive Transfer where
  | idle
  | write
  | read (slot : Reply)
  deriving DecidableEq, Repr

/-- The ports: setup port holder and refused select, what SPDO carried in the last transaction, the reply
slots, the stage port's address, transfer, acknowledge of the address byte, acknowledges of the bytes of the last write
transfer, and TWD output, its time-out counter (stopped, or running against a limit in ms), and the time-out setting
(R158 to R169). -/
structure Ports where
  holder : Option Select
  refused : Option Select
  spdo : List Byte
  psel : Reply
  dsel : Reply
  stage : Reply
  address : BitVec 7
  transfer : Transfer
  acknowledged : Bool
  acks : List Bool
  twd : List Byte
  timer : Option Nat
  timeout : Nat
  deriving DecidableEq, Repr

/-! ### Fault monitor (chapter 11) -/

/-- The fault causes (R175). -/
inductive Cause where
  | rate
  | howl
  deriving DecidableEq, Repr

/-- The output states (Table 11.1). -/
inductive OutputState where
  | run
  | degraded (cause : Cause)
  | recovering
  | bypass
  deriving DecidableEq, Repr

/-- The fault monitor (R173 to R179). Cause RATE is the rate monitor's own. The flags have the bits of
Table 10.3. -/
structure FaultMonitor where
  output : OutputState
  causeHowl : Bool
  howlCounter : Nat
  dev0 : Option Int
  recovery : Nat
  howlEnable : Bool
  window : Nat
  flags : BitVec 16
  deriving DecidableEq, Repr

/-! ### Completions -/

/-- What the last hop or frame brought about and the part has not yet carried out: the completions that the table
of operations lists as steps of their own. `proposal` is a decay event's tonic that waits for a write of its hop to reach
the context unit first (R107). DESIGN CHOICE, unsafe; log entries 1 and 26. -/
structure Due where
  learn : Bool
  howl : Bool
  recovery : Bool
  note : Option NoteEvent
  decay : Bool
  proposal : Option (Fin 12)
  dwell : Bool
  silence : Bool
  fadeStep : Bool
  render : Bool
  deriving DecidableEq, Repr

/-! ### The machine -/

/-- The state of the CDH-7240. `draws` counts the free values drawn so far (the model's own); `pending` is the
queue of commands that wait, first in, first out. -/
structure State where
  asp : Asp
  rate : Rate
  tracker : Tracker
  decider : Decider
  tables : Tables
  ctx : Context
  line : Line
  matcher : Option Match
  queue : List QueueEntry
  key : KeyTracker
  copy : ContextCopy
  voices : Quad Voice
  renderer : Renderer
  cue : CueUnit
  ports : Ports
  fault : FaultMonitor
  due : Due
  draws : Nat
  pending : List Instr
  deriving DecidableEq, Repr

/-- The reasons a step can stop with a fault: none. Every command of the part has a next state. -/
inductive Fault : Type where
  deriving DecidableEq, Repr

/-- The reasons a step can be refused. -/
inductive Refusal where
  /-- Raised by `exec` alone, for a command that has no meaning yet; no command of this model is refused. Safe. -/
  | notModelled (mnemonic : String)
  deriving DecidableEq, Repr

/-! ### Power-on values -/

/-- A context field as no source has written it (Table 4.1). -/
def Field.atReset {α : Type} (v : α) : Field α := ⟨v, .reset, none, none⟩

/-- Table 4.1 and Table 4.4: the context after power-on and RESTART; hush absent, line condition LISTENING. -/
def Context.atReset : Context :=
  { key := .atReset 0, scale := .atReset 0, chord := .atReset none, switches := 0xaf#8, lockMask := 0#8, hush := none, lineCond := .listening }

/-- R6: the rate monitor at power-on. -/
def Rate.atReset : Rate :=
  { state := .unlocked, mode := .auto, method := .track, windowMin := 64880, windowMax := 66192, nrate := 65536, acquisition := [],
    acquisitionClass := none, lockedClass := none, outCount := 0, remeasure := none, run := none, causeRate := false }

/-- R3: the dry delay line with all 128 entries zero. -/
def dryZero : List Sample := List.replicate 128 0#24

/-- R16: the analysis history filled with zero samples. -/
def historyZero : List Sample := List.replicate 4096 0#24

/-- R3, R15: the audio serial port at power-on. -/
def Asp.atReset : Asp := { frames := 0, absenceRunning := false, dry := dryZero, adout := none, vocal := [] }

/-- Table 2.1, R16, R22: the pitch tracker at power-on. -/
def Tracker.atReset : Tracker :=
  { settings := { trim := 0, low := 320, high := 2111, gate := 12, confidence := 6, hysteresis := 8, settle := 2, release := 6 },
    learn := none, history := historyZero }

/-- Table 3.1: the scale slots at power-on. -/
def scalesAtReset : List ScaleSlot :=
  [⟨0xab5#12, .parallel⟩, ⟨0x5ad#12, .parallel⟩, ⟨0x9ad#12, .parallel⟩, ⟨0x295#12, .parallel⟩, ⟨0x4a9#12, .parallel⟩,
   ⟨0x6ad#12, .parallel⟩, ⟨0x6b5#12, .parallel⟩, ⟨0x000#12, .parallel⟩]

/-- Table 3.3: the shape slots at power-on. -/
def shapesAtReset : List PitchSet :=
  [0x091#12, 0x089#12, 0x491#12, 0x489#12, 0x891#12, 0x0a1#12, 0x049#12, 0x111#12, 0x085#12, 0x449#12,
   0#12, 0#12, 0#12, 0#12, 0#12, 0#12]

/-- A plan of Table 3.5 with the range, follow, glide and level that slots 0 to 7 share. -/
def planAtReset (mode : PlanMode) (amount : Int) (fallback : Option Int) : Plan :=
  { mode := mode, amount := amount, low := 12, high := 71, follow := true, glide := 3, level := 100, fallback := fallback }

/-- The OFF plan of slots 8 to 15 (Table 3.5). -/
def planOff : Plan := { mode := .off, amount := 0, low := 0, high := 95, follow := true, glide := 0, level := 0, fallback := none }

/-- Table 3.5: the plan library at power-on. -/
def plansAtReset : List Plan :=
  [planAtReset .scalar 2 none, planAtReset .scalar (-2) none, planAtReset .scalar 4 none, planAtReset .scalar (-3) none,
   planAtReset .chordal 1 (some 2), planAtReset .chordal (-1) (some (-2)), planAtReset .fixed 12 none, planAtReset .fixed (-12) none,
   planOff, planOff, planOff, planOff, planOff, planOff, planOff, planOff]

/-- The empty cue step (R145). -/
def cueStepEmpty : CueStep :=
  { key := none, scale := none, chord := none, setMask := 0#8, clearMask := 0#8, bindings := [], advance := .manual }

/-- Tables 3.1, 3.3, 3.5 and R145: the table store at power-on. -/
def Tables.atReset : Tables :=
  { scales := scalesAtReset, shapes := shapesAtReset, plans := plansAtReset, cues := List.replicate 64 cueStepEmpty, cueLength := 0, wrap := false }

/-- Table 5.2, R81: the chord line receiver at power-on. -/
def Line.atReset : Line :=
  { settings := { baud := .b38400, parity := .none, stale := 48, lost := 160, breakAction := .hold, enable := true },
    wait := .edge, fifo := [], gapPending := false, assembler := .hunt, silence := 0, frameSeen := false, broken := false, cond := .listening }

/-- Table 6.1, R98: the key tracker at power-on. -/
def KeyTracker.atReset : KeyTracker :=
  { acc := List.replicate 12 0, counter := 0, decay := 512, margin := 8, minTotal := 2000, evaluation := none }

/-- Table 8.1: a voice's renderer record at power-on and RESTART. -/
def RenderRecord.atReset : RenderRecord :=
  { state := .idle, fade := 0, fadeOld := 0, enable := true, hasTarget := false, interval := none, glide := none, requested := none,
    pending := none, applied := 0, ratio := 16384, timer := 0, boundaryDue := false }

/-- Table 7.1: a voice at power-on and RESTART, bound to `slot` with a copy of that slot's plan. -/
def Voice.atReset (slot : Fin 16) (plans : List Plan) : Voice :=
  { res := { binding := slot, plan := plans.getD slot planOff, staged := none, target := none, goal := none, basis := none },
    ren := .atReset }

/-- Table 7.1: the four voices at power-on and RESTART. -/
def voicesAtReset (plans : List Plan) : Quad Voice :=
  ⟨.atReset 0 plans, .atReset 1 plans, .atReset 4 plans, .atReset 5 plans⟩

/-- R110: the resolver's context copy at power-on and RESTART. -/
def ContextCopy.atReset : ContextCopy := { tonic := 0, scale := 0, chord := none, switches := 0xaf#8 }

/-- R129: the renderer's common state at power-on and RESTART. -/
def Renderer.atReset : Renderer := { grainMode := .fixed, grainLength := 2048, fadeCount := 0, ramp := 0 }

/-- R148: the cue unit at power-on and RESTART. -/
def CueUnit.atReset : CueUnit := { cursor := none, counter := 0, running := false, entered := .manual }

/-- The reply that a slot holds before its source's first command (R169). -/
def Reply.none : Reply := ⟨0#8, .none, []⟩

/-- R158 to R169: the ports at power-on, with the address pins SA1:SA0 as sampled (R161). -/
def Ports.atReset (sa : BitVec 2) : Ports :=
  { holder := none, refused := none, spdo := [], psel := .none, dsel := .none, stage := .none, address := 0x2c#7 + sa.setWidth 7,
    transfer := .idle, acknowledged := false, acks := [], twd := [], timer := none, timeout := 20 }

/-- R174, R178, R179: the fault monitor at power-on. -/
def FaultMonitor.atReset : FaultMonitor :=
  { output := .run, causeHowl := false, howlCounter := 0, dev0 := none, recovery := 0, howlEnable := true, window := 384, flags := 0#16 }

/-- Nothing due. -/
def Due.nothing : Due :=
  { learn := false, howl := false, recovery := false, note := none, decay := false, proposal := none, dwell := false, silence := false,
    fadeStep := false, render := false }

/-- R15: every item of state at its power-on value, with the address pins as sampled. -/
def State.powerOn (sa : BitVec 2) : State :=
  { asp := .atReset, rate := .atReset, tracker := .atReset, decider := ⟨.silent, 0⟩, tables := .atReset, ctx := .atReset, line := .atReset,
    matcher := none, queue := [], key := .atReset, copy := .atReset, voices := voicesAtReset plansAtReset, renderer := .atReset, cue := .atReset,
    ports := .atReset sa, fault := .atReset, due := .nothing, draws := 0, pending := [] }

/-- The machine right after power-on with SA1:SA0 = 0 (the address pins are an input; DESIGN CHOICE, unsafe; log
entry 5) and no command waiting. -/
def State.reset : State := State.powerOn 0#2

end Sys2Proof.Machine
end

