-- ==== Sys2Proof/Machine/Flags.lean ====
section
/-! DEFINITION. The sticky flags (R179, Table 11.3), the switch word's bits (Table 4.4, Table 10.3) and ATN (R172). -/

namespace Sys2Proof.Machine

/-- The 16 sticky flags (Table 11.3). -/
inductive Flag where
  | frameDrop
  | overrun
  | noise
  | unrecognized
  | queueSlip
  | lineBreak
  | lineLost
  | keyAdopt
  | cueAdv
  | cueEnd
  | fault
  | bypass
  | rateLock
  | learnDone
  | learnFail
  | twTimeout
  deriving DecidableEq, Repr

/-- A flag's bit in the two flag bytes read as one word, first byte high (Table 10.3). -/
def Flag.bit : Flag → Nat
  | .frameDrop => 0
  | .overrun => 1
  | .noise => 2
  | .unrecognized => 3
  | .queueSlip => 4
  | .lineBreak => 5
  | .lineLost => 6
  | .keyAdopt => 7
  | .cueAdv => 8
  | .cueEnd => 9
  | .fault => 10
  | .bypass => 11
  | .rateLock => 12
  | .learnDone => 13
  | .learnFail => 14
  | .twTimeout => 15

/-- The flag word with `f` alone. -/
def Flag.mask (f : Flag) : BitVec 16 := BitVec.twoPow 16 f.bit

/-- Set a sticky flag; a flag already set stays set (R179). -/
def State.raise (s : State) (f : Flag) : State := { s with fault := { s.fault with flags := s.fault.flags ||| f.mask } }

/-- Set a sticky flag when `c` holds. -/
def State.raiseIf (s : State) (c : Bool) (f : Flag) : State := if c then s.raise f else s

/-- Whether a sticky flag is set. -/
def State.flag (s : State) (f : Flag) : Bool := s.fault.flags.getLsbD f.bit

/-- R172: the ATN pin is asserted while at least one sticky flag is set. -/
def State.atn (s : State) : Bool := s.fault.flags != 0#16

/-- The eight switches (Table 4.4). -/
inductive Switch where
  | v0
  | v1
  | v2
  | v3
  | freeze
  | chord
  | keytrk
  | stalefall
  deriving DecidableEq, Repr

/-- A switch's bit in the switch word (Table 10.3). -/
def Switch.bit : Switch → Nat
  | .v0 => 0
  | .v1 => 1
  | .v2 => 2
  | .v3 => 3
  | .freeze => 4
  | .chord => 5
  | .keytrk => 6
  | .stalefall => 7

/-- The enable switch of a voice. -/
def Switch.enable : Fin 4 → Switch
  | 0 => .v0
  | 1 => .v1
  | 2 => .v2
  | 3 => .v3

/-- Whether a switch is set in a switch word. -/
def switchSet (w : BitVec 8) (x : Switch) : Bool := w.getLsbD x.bit

end Sys2Proof.Machine
end

