-- ==== Sys2Proof/Machine/Operands.lean ====
section
/-! DEFINITION. The codings of command arguments and reply data (R166, Table 10.3). A field given as a list of
choices is carried as its position in the list, from 0 (R166); `none` is a value outside the list. -/

namespace Sys2Proof.Machine

/-! ### Arguments -/

/-- An on-or-off field: the lists read "on, off", so 0 is on and 1 is off (R166, R147, R174, Table 5.2). DEDUCED, unsafe;
log entry 6. -/
def readOnOff (b : Byte) : Option Bool := if b = 0#8 then some true else if b = 1#8 then some false else none

/-- A presence byte or mark: 0 absent, 1 present (R166); any other value is open (log entry 4). -/
def readMark (c : Cmd) (b : Byte) : Bool := if b = 0#8 then false else if b = 1#8 then true else Config.otherMark c.code b

/-- A pin request: 0 NOPIN, 1 PIN (R58). -/
def readPin (b : Byte) : Option Bool := if b = 0#8 then some false else if b = 1#8 then some true else none

/-- A plan's follow field: the list reads "yes, no" (Table 3.4); any other value is open (log entry 4). -/
def readFollow (b : Byte) : Bool := if b = 0#8 then true else if b = 1#8 then false else Config.otherFollow b

/-- R41: PARALLEL, LOWER or UPPER. -/
def readRule (b : Byte) : Option ScaleRule :=
  if b = 0#8 then some .parallel else if b = 1#8 then some .lower else if b = 2#8 then some .upper else none

/-- Table 3.4: OFF, SCALAR, CHORDAL, FIXED, DRONE. -/
def readMode (b : Byte) : Option PlanMode :=
  if b = 0#8 then some .off else if b = 1#8 then some .scalar else if b = 2#8 then some .chordal
  else if b = 3#8 then some .fixed else if b = 4#8 then some .drone else none

/-- R47, R111: NEXT or IMMEDIATE; `true` is IMMEDIATE. -/
def readAdoption (b : Byte) : Option Bool := if b = 0#8 then some false else if b = 1#8 then some true else none

/-- R23: PEAK or AVERAGE. -/
def readLearnMethod (b : Byte) : Option LearnMethod := if b = 0#8 then some .peak else if b = 1#8 then some .average else none

/-- R13: AUTO or MANUAL. -/
def readRateMode (b : Byte) : Option RateMode := if b = 0#8 then some .auto else if b = 1#8 then some .manual else none

/-- R13: TRACK or HOLD. -/
def readRateMethod (b : Byte) : Option RateMethod := if b = 0#8 then some .track else if b = 1#8 then some .hold else none

/-- Table 10.3, "Chord line baud". -/
def readBaud (b : Byte) : Option Baud :=
  if b = 0#8 then some .b19200 else if b = 1#8 then some .b38400 else if b = 2#8 then some .b57600
  else if b = 3#8 then some .b115200 else none

/-- Table 10.3, "Chord line parity". -/
def readParity (b : Byte) : Option Parity :=
  if b = 0#8 then some .none else if b = 1#8 then some .even else if b = 2#8 then some .odd else none

/-- Table 10.3, "Chord line break action". -/
def readBreakAction (b : Byte) : Option BreakAction := if b = 0#8 then some .hold else if b = 1#8 then some .clear else none

/-- A number below `n`, from a byte. -/
def readFin (n : Nat) (b : Byte) : Option (Fin n) := if h : b.toNat < n then some ⟨b.toNat, h⟩ else none

/-- A member set's two bytes; `none` when an unused bit is set (R41, R44, Table 10.3). -/
def readMembers (w : BitVec 16) : Option PitchSet := if w.extractLsb' 12 4 = 0#4 then some (w.extractLsb' 0 12) else none

/-- The apply-at values of Table 5.3: 0 NOW, 1 ONSET, 2 PHRASE. -/
def readApplyAt (b : Byte) : Option ApplyAt :=
  if b = 0#8 then some .now else if b = 1#8 then some .onset else if b = 2#8 then some .phrase else none

/-- The frame kind codes of Table 5.3. -/
def readFrameKind (k : Nat) : Option FrameKind :=
  if k = 1 then some .chord else if k = 2 then some .notes else if k = 3 then some .key else if k = 4 then some .clear
  else if k = 5 then some .alive else none

/-! ### Reply data -/

/-- A non-negative field in `w` bytes, most significant first (R166). -/
def natBytes : Nat → Nat → List Byte
  | 0, _ => []
  | w + 1, n => natBytes w (n / 256) ++ [BitVec.ofNat 8 n]

/-- A signed field in `w` bytes, two's complement (R166). -/
def intBytes (w : Nat) (x : Int) : List Byte := natBytes w (x % (256 ^ w : Nat)).toNat

/-- A one-byte field. -/
def byteOf (n : Nat) : Byte := BitVec.ofNat 8 n

/-- A mark: 0 no, 1 yes. DEDUCED, unsafe; log entry 6. -/
def markByte (b : Bool) : Byte := if b then 1#8 else 0#8

/-- An item that may be absent: a presence byte, and the item's bytes, zero when absent (section 10.6). -/
def optBytes {α : Type} (w : Nat) (f : α → List Byte) : Option α → List Byte
  | some x => 1#8 :: f x
  | none => 0#8 :: List.replicate w 0#8

/-- An on-or-off field, coded as in the commands (log entry 6). -/
def onOffByte (b : Bool) : Byte := if b then 0#8 else 1#8

/-- Table 10.3, "Source code", of a manual source. -/
def manualCode : Manual → Byte
  | .panel => 1#8
  | .stage => 2#8
  | .desk => 3#8

/-- Table 10.3, "Source code", of an automatic source. -/
def Auto.sourceCode : Auto → Byte
  | .cue => 4#8
  | .chordline => 5#8
  | .keytrk => 6#8

/-- Table 10.3, "Source code", of an owner. -/
def Owner.sourceCode : Owner → Byte
  | .reset => 0#8
  | .source (.manual m) => manualCode m
  | .source (.auto a) => a.sourceCode

/-- Table 10.3, "Source code", of a pin or hush holder; 0 when absent. -/
def holderByte : Option Manual → Byte
  | none => 0#8
  | some m => manualCode m

/-- Table 10.2: the reply codes. -/
def replyByte : ReplyCode → Byte
  | .done => 0#8
  | .accepted => 1#8
  | .outranked => 2#8
  | .range => 3#8
  | .empty => 4#8
  | .notPermitted => 5#8
  | .busy => 6#8
  | .ended => 7#8
  | .format => 8#8
  | .faultActive => 9#8
  | .unknown => 10#8
  | .notReady => 11#8
  | .none => 15#8

/-- A reply record's bytes: length, command code, reply code, data (Table 10.3). -/
def Reply.bytes (r : Reply) : List Byte := byteOf (r.data.length + 2) :: r.command :: replyByte r.code :: r.data

/-- A pitch class or slot number. -/
def finByte {n : Nat} (x : Fin n) : Byte := byteOf x.val

/-- A bass as a presence byte and a pitch class. -/
def bassBytes (b : Option (Fin 12)) : List Byte := optBytes 1 (fun x => [finByte x]) b

/-- A CHORD field's value, coded as SETCHORD codes it: kind 0 NONE or 1 CHORD, root, shape, bass mark, bass. -/
def chordBytes : Option Chord → List Byte
  | none => [0#8, 0#8, 0#8, 0#8, 0#8]
  | some c => 1#8 :: finByte c.root :: finByte c.shape :: bassBytes c.bass

/-- A cue step's chord, coded as CUELOAD codes it: kind 0 absent, 1 NONE or 2 CHORD (R146). -/
def cueChordBytes : Option (Option Chord) → List Byte
  | none => [0#8, 0#8, 0#8, 0#8, 0#8]
  | some none => [1#8, 0#8, 0#8, 0#8, 0#8]
  | some (some c) => 2#8 :: finByte c.root :: finByte c.shape :: bassBytes c.bass

/-- An advance condition: kind and count (Table 9.1, R146). -/
def advanceBytes : Advance → List Byte
  | .manual => [0#8, 0#8, 0#8]
  | .onsets n => 1#8 :: natBytes 2 n
  | .dwell h => 2#8 :: natBytes 2 h

/-- A cue step record, coded as CUELOAD codes it without the step number (R157). -/
def cueStepBytes (c : CueStep) : List Byte :=
  optBytes 1 (fun x => [finByte x]) c.key ++ optBytes 1 (fun x => [finByte x]) c.scale ++ cueChordBytes c.chord ++
    [c.setMask, c.clearMask] ++ advanceBytes c.advance ++ byteOf c.bindings.length ::
    c.bindings.flatMap fun b => [finByte b.1, finByte b.2]

/-- A rule's code (R41). -/
def ruleByte : ScaleRule → Byte
  | .parallel => 0#8
  | .lower => 1#8
  | .upper => 2#8

/-- A member set's two bytes (Table 10.3). -/
def memberBytes (m : PitchSet) : List Byte := bytes16 (m.setWidth 16)

/-- A plan mode's code (Table 3.4). -/
def modeByte : PlanMode → Byte
  | .off => 0#8
  | .scalar => 1#8
  | .chordal => 2#8
  | .fixed => 3#8
  | .drone => 4#8

/-- A plan record, coded as LOADPLAN codes it (Table 3.4, R166). -/
def planBytes (p : Plan) : List Byte :=
  [modeByte p.mode] ++ intBytes 1 p.amount ++ [byteOf p.low, byteOf p.high, if p.follow then 0#8 else 1#8, byteOf p.glide, byteOf p.level] ++
    optBytes 1 (intBytes 1) p.fallback

/-- Table 10.3, "Rate state". -/
def rateStateByte : RateState → Byte
  | .unlocked => 0#8
  | .acquiring => 1#8
  | .locked => 2#8
  | .lost => 3#8

/-- Table 10.3, "Fault cause". -/
def causeByte : Cause → Byte
  | .rate => 0#8
  | .howl => 1#8

/-- Table 10.3, "Output state". -/
def outputByte : OutputState → Byte
  | .run => 0#8
  | .degraded _ => 1#8
  | .recovering => 2#8
  | .bypass => 3#8

/-- The cause of DEGRADED, if the output state is DEGRADED. -/
def OutputState.cause? : OutputState → Option Cause
  | .degraded k => some k
  | _ => none

/-- Table 10.3, "Decider state". -/
def deciderByte : DeciderState → Byte
  | .silent => 0#8
  | .onset _ _ => 1#8
  | .held _ => 2#8
  | .transition _ _ _ => 3#8
  | .releasing _ _ => 4#8

/-- Table 10.3, "Line condition". -/
def conditionByte : LineCondition → Byte
  | .off => 0#8
  | .listening => 1#8
  | .active => 2#8
  | .stale => 3#8
  | .lost => 4#8
  | .broken => 5#8

/-- Table 10.3, "Renderer state". -/
def renderStateByte : RenderState → Byte
  | .idle => 0#8
  | .rising => 1#8
  | .sounding => 2#8
  | .falling => 3#8

/-- Table 10.3, "Basis path". -/
def pathByte : BasisPath → Byte
  | .scalar => 0#8
  | .chordal => 1#8
  | .fallback => 2#8
  | .noChord => 3#8
  | .fixed => 4#8
  | .drone => 5#8
  | .off => 6#8

/-- Table 10.3, "Basis fold". -/
def foldByte : BasisFold → Byte
  | .none => 0#8
  | .octave => 1#8
  | .edge => 2#8

/-- Table 10.3, "Grain mode". -/
def grainModeByte : GrainMode → Byte
  | .period => 0#8
  | .fixed => 1#8

/-- Table 10.3, "Key tracker evaluation outcome". -/
def outcomeByte : KeyOutcome → Byte
  | .same => 0#8
  | .lowTotal => 1#8
  | .margin => 2#8
  | .switchOff => 3#8
  | .proposed => 4#8

end Sys2Proof.Machine
end

