-- ==== Sys2Proof/Machine/Ops.lean ====
section
/-! DEFINITION. Operations that several blocks share: exact arithmetic of levels, pitches and ratios, reply
slots, ranks, and the renderer's moves of one voice. The numbers are computed in integers, with no rounding but
the manual's own. -/

namespace Sys2Proof.Machine

/-! ### Exact arithmetic -/

/-- Full scale, the largest positive sample (section 1.9.1). -/
def fullScale : Nat := 8388607

/-- A sample's magnitude, that of −8,388,608 taken as full scale (R17). -/
def magnitude (x : Sample) : Nat := min x.toInt.natAbs fullScale

/-- The largest magnitude of a list of samples, 0 for none (R17). -/
def peakOf (l : List Sample) : Nat := l.foldl (fun p x => max p (magnitude x)) 0

/-- Whether a peak lies at least `k` steps of 1.5 dB below full scale: −20·log10(peak/FS) ≥ 1.5k, raised to the
40th power to stand in whole numbers. -/
def atLeastSteps (peak k : Nat) : Bool := decide (peak ^ 40 * 1000 ^ k ≤ fullScale ^ 40)

/-- floor(A / 1.5), for A below 93 dB, by counting the whole steps of attenuation from 1 to `fuel`. -/
def attenuationSteps (peak : Nat) : Nat → Nat
  | 0 => 0
  | k + 1 => if atLeastSteps peak (k + 1) then k + 1 else attenuationSteps peak k

/-- R17: the level code of a peak. 93 dB is 62 steps. -/
def levelCode (peak : Nat) : Nat :=
  if peak = 0 ∨ atLeastSteps peak 62 then 0 else 63 - attenuationSteps peak 61

/-- 2 ^ e, with no exponent above 256 while e is below 16,384. -/
def twoTo (e : Nat) : Nat := (2 ^ (e / 64)) ^ 64 * 2 ^ (e % 64)

/-- x ^ 768. -/
def pow768 (x : Nat) : Nat := (x ^ 3) ^ 256

/-- x ^ 384. -/
def pow384 (x : Nat) : Nat := (x ^ 3) ^ 128

/-- One bit of the search for a raw code, kept 1024 too high: n ≤ raw + 1/2 means 2n − 2881 ≤ 768·log2(f / 440), and
f / 440 is 1,258,291,200 / (11 · Nrate · P16). -/
def rawBit (nrate p16 : Nat) (k b : Nat) : Nat :=
  if twoTo (2 * (k + 2 ^ b)) * pow768 (11 * nrate * p16) ≤ pow768 1258291200 * twoTo 4929 then k + 2 ^ b else k

/-- R18: the raw code 1440 + 384·log2(f / 440), rounded to the nearest integer with ties upward. -/
def rawCode (nrate p16 : Nat) : Int :=
  (([12, 11, 10, 9, 8, 7, 6, 5, 4, 3, 2, 1, 0].foldl (rawBit nrate p16) 0 : Nat) : Int) - 1024

/-- R18: the pitch code of a period, absent outside 0 to 3071. -/
def pitchCode (nrate p16 : Nat) (trim : Int) : Option Nat :=
  let c := rawCode nrate p16 - trim
  if 0 ≤ c ∧ c ≤ 3071 then some c.toNat else none

/-- One bit of the search for a ratio code: keep the bit if the half-step below the larger code is not above
2^(14 + Δ/384), that is (2n − 1)^384 ≤ 2^(5760 + Δ). -/
def ratioBit (e : Nat) (n b : Nat) : Nat := if pow384 (2 * (n + 2 ^ b) - 1) ≤ twoTo e then n + 2 ^ b else n

/-- R134: the ratio code 16384 · 2^(Δ / 384), rounded to the nearest integer with ties upward. -/
def ratioCode (shift : Int) : Nat :=
  [16, 15, 14, 13, 12, 11, 10, 9, 8, 7, 6, 5, 4, 3, 2, 1, 0].foldl (ratioBit (5760 + shift).toNat) 0

/-- Saturation to the 24-bit range (R141, R142). -/
def saturate (x : Int) : Int := max (-8388608) (min 8388607 x)

/-- A quotient whose rounding is open: exact where it is whole, else the whole number below or above it. -/
def openQuotient (x : Int) (d : Nat) (up : Bool) : Int := if x % d = 0 then x / d else if up then x / d + 1 else x / d

/-- A sample in its slot: bits 31 to 8, with bits 7 to 0 zero (Table 10.3). -/
def slotOf (x : Sample) : SlotWord := x ++ 0#8

/-! ### Ranks and reply slots -/

/-- The rank of a manual source (Table 1.5). -/
def rank : Manual → Nat
  | .desk => 3
  | .stage => 2
  | .panel => 1

/-- The higher-ranked of two manual sources. -/
def higher (a b : Manual) : Manual := if rank a ≤ rank b then b else a

/-- The source of a select (section 10.1.1). -/
def selectSource : Select → Manual
  | .psel => .panel
  | .dsel => .desk

/-- The reply slot of a source (R169). -/
def State.slot (s : State) : Manual → Reply
  | .panel => s.ports.psel
  | .desk => s.ports.dsel
  | .stage => s.ports.stage

/-- R169: a reply written to a source's slot replaces the record it held. -/
def State.reply (s : State) (src : Manual) (r : Reply) : State :=
  match src with
  | .panel => { s with ports := { s.ports with psel := r } }
  | .desk => { s with ports := { s.ports with dsel := r } }
  | .stage => { s with ports := { s.ports with stage := r } }

/-- What an owning block answers: the state after it, the reply code, and the reply's data. -/
abbrev Answer := State × ReplyCode × List Byte

/-- A refusal or a plain reply: the state is unchanged but for the reply. -/
def answer (s : State) (c : ReplyCode) : Answer := (s, c, [])

/-! ### One voice in the renderer (chapter 8) -/

/-- R134: a requested shift goes to the pending store. -/
def RenderRecord.request (r : RenderRecord) (shift : Int) : RenderRecord :=
  { r with requested := some shift, pending := if shift = r.applied then none else some shift }

/-- R133: the clamp to two octaves. -/
def clampShift (x : Int) : Int := max (-768) (min 768 x)

/-- R133: form the requested shift from the current interval, the plan's follow field and dev; nothing when the
current interval is absent. -/
def RenderRecord.formShift (r : RenderRecord) (follow : Bool) (dev : Int) : RenderRecord :=
  match r.interval with
  | some i => r.request (clampShift (if follow then i else i - dev))
  | none => r

/-- R136: at a grain boundary a pending shift becomes the applied shift with its ratio code. -/
def RenderRecord.adoptShift (r : RenderRecord) : RenderRecord :=
  match r.pending with
  | some d => { r with applied := d, ratio := ratioCode d, pending := none }
  | none => r

/-- R130: the renderer takes an interval goal. -/
def RenderRecord.takeGoal (r : RenderRecord) (plan : Plan) (dev : Int) (g : Int) : RenderRecord :=
  let r := { r with hasTarget := true }
  match r.interval with
  | none => { r with interval := some g, glide := none }.formShift plan.follow dev
  | some i =>
    if r.state = .idle ∨ plan.glide = 0 then { r with interval := some g, glide := none }.formShift plan.follow dev
    else if g = i then { r with glide := none }
    else { r with glide := some ⟨i, g, plan.glide, plan.glide⟩ }

/-- R130: the renderer takes a mark of no target. -/
def RenderRecord.loseTarget (r : RenderRecord) : RenderRecord := { r with hasTarget := false, glide := none }

/-- R131: one glide step. -/
def RenderRecord.glideStep (r : RenderRecord) : RenderRecord :=
  match r.glide with
  | some g =>
    let rem := g.remaining - 1
    { r with
      interval := some (g.goal - Int.tdiv ((g.goal - g.start) * rem) g.length)
      glide := if rem = 0 then none else some { g with remaining := rem } }
  | none => r

/-- R131, R133: a voice's glide step and requested shift at a hop. -/
def RenderRecord.hopWork (r : RenderRecord) (follow : Bool) (dev : Int) : RenderRecord := r.glideStep.formShift follow dev

/-- Table 8.5, R138, R139: one fade step; the position before it is kept for the ramp. -/
def RenderRecord.fadeStep (r : RenderRecord) : RenderRecord :=
  match r.state with
  | .idle => { r with fadeOld := r.fade }
  | .sounding => { r with fadeOld := r.fade }
  | .rising =>
    let f := min 8 (r.fade + 2)
    { r with fadeOld := r.fade, fade := f, state := if f = 8 then .sounding else .rising }
  | .falling =>
    let f := r.fade - 1
    { r with fadeOld := r.fade, fade := f, state := if f = 0 then .idle else .falling }

/-- R140: the cut: IDLE with fade position 0 at once, and gain 0 from the next frame. -/
def RenderRecord.cut (r : RenderRecord) : RenderRecord := { r with state := .idle, fade := 0, fadeOld := 0 }

/-- R136: a voice that leaves IDLE has a grain boundary at that moment and its grain timer becomes 0. -/
def RenderRecord.leaveIdle (r : RenderRecord) : RenderRecord :=
  { r with state := .rising, timer := 0, boundaryDue := false }.adoptShift

/-- R137: the voice's state under its sound condition `c`. -/
def RenderRecord.retest (r : RenderRecord) (c : Bool) : RenderRecord :=
  match c, r.state with
  | true, .idle => r.leaveIdle
  | true, .falling => { r with state := if r.fade = 8 then .sounding else .rising }
  | false, .rising => { r with state := if r.fade = 0 then .idle else .falling }
  | false, .sounding => { r with state := if r.fade = 0 then .idle else .falling }
  | _, _ => r

/-- R139: the numerator, over 2048, of the voice's gain in the n-th frame after a fade step. -/
def RenderRecord.gain (r : RenderRecord) (n : Nat) : Int := (r.fadeOld : Int) * 256 + ((r.fade : Int) - r.fadeOld) * n

/-! ### The decider's note and the sound condition -/

/-- R35: the note the decider reports. -/
def DeciderState.note : DeciderState → Option Nat
  | .silent => none
  | .onset _ _ => none
  | .held n => some n
  | .transition n _ _ => some n
  | .releasing n _ => some n

/-- Whether a note-on waits to be taken by the context unit. -/
def Due.noteOnWaits (d : Due) : Bool :=
  match d.note with
  | some (.noteOn _) => true
  | _ => false

/-- The decider's term of the sound condition (R137): a note is reported. While a note-on waits for its note-start
operation the term has not yet reached the renderer, so that a voice that fades in starts on its goal (R130, R138).
DEDUCED, unsafe; log entry 2. -/
def State.noteTerm (s : State) : Bool := s.decider.state.note.isSome && !s.due.noteOnWaits

/-- R137: the sound condition of a voice. -/
def State.soundCondition (s : State) (r : RenderRecord) : Bool :=
  r.enable && r.hasTarget && s.noteTerm && s.fault.output == .run && s.ctx.hush.isNone

/-- Apply a change to every voice's renderer record. -/
def State.mapRen (s : State) (f : RenderRecord → RenderRecord) : State :=
  { s with voices := s.voices.map fun v => { v with ren := f v.ren } }

/-- R137: test every voice's sound condition afresh. -/
def State.retest (s : State) : State := s.mapRen fun r => r.retest (s.soundCondition r)

/-- R140: cut every voice. -/
def State.cutVoices (s : State) : State := s.mapRen RenderRecord.cut

/-- R131, R133: the glide steps and requested shifts of a hop, with the dev in force. -/
def State.hopWork (s : State) : State :=
  { s with voices := s.voices.map fun v => { v with ren := v.ren.hopWork v.res.plan.follow s.decider.dev } }

/-- R139: a fade step for all voices; the fade-step count becomes 0 and a new ramp begins. -/
def State.fadeStep (s : State) : State :=
  let t := s.mapRen RenderRecord.fadeStep
  { t with renderer := { t.renderer with fadeCount := 0, ramp := 0 } }

/-! ### The chord queue (section 5.5) -/

/-- R97: a flush empties the queue and discards the result of a match in progress (R93). -/
def State.flushQueue (s : State) : State :=
  { s with queue := [], matcher := s.matcher.map fun m => { m with discarded := true } }

/-- R95: an append; a full queue first loses its head, with QUEUESLIP. -/
def State.appendQueue (s : State) (e : QueueEntry) : State :=
  if s.queue.length < 4 then { s with queue := s.queue ++ [e] }
  else { s.raise .queueSlip with queue := s.queue.drop 1 ++ [e] }

/-- R96: the head, if its trigger matches. -/
def queueHead (q : List QueueEntry) (t : Trigger) : Option (Option Chord) :=
  match q with
  | e :: _ => if e.trigger = t then some e.value else none
  | [] => none

end Sys2Proof.Machine
end

