-- ==== Sys2Proof/Machine/Resolver.lean ====
section
/-! DEFINITION. Voice resolution (chapter 7): target computation, range fold, resolution, adoption and staging of one
voice, and the resolver's handling of a publication. -/

namespace Sys2Proof.Machine

/-! ### Target computation (section 7.4) -/

/-- A slot's members in ascending order, s_0 to s_(m−1) (R38). -/
def membersOf (s : PitchSet) : List Nat := (List.range 12).filter s.getLsbD

/-- Whether a pitch class, given as a number mod 12, is in a set. -/
def hasClass (s : PitchSet) (x : Int) : Bool := s.getLsbD (x % 12).toNat

/-- R119, Table 7.3: base index, offset and octave carry for the sung pitch class `p` counted from the tonic. -/
def baseDegree (slot : ScaleSlot) (p : Nat) : Int × Int × Int :=
  let below := (membersOf slot.members).filter (· < p)
  if slot.members.getLsbD p then (below.length, 0, 0)
  else
    match slot.rule with
    | .parallel => (below.length - 1, p - (below.getLastD 0 : Nat), 0)
    | .lower => (below.length - 1, 0, 0)
    | .upper => if below.length < (membersOf slot.members).length then (below.length, 0, 0) else (0, 0, 1)

/-- R119, R120: the working note of a SCALAR step of `k` from the held note `n`. -/
def scalarNote (slot : ScaleSlot) (tonic : Fin 12) (n : Nat) (k : Int) : Int :=
  let members := membersOf slot.members
  let m : Int := members.length
  let p := (((n : Int) - tonic.val) % 12).toNat
  let d := baseDegree slot p
  let j := d.1 + k
  let q := Int.fdiv j m
  let j' := j - q * m
  ((n : Int) - p) + 12 * (q + d.2.2) + (members.getD j'.toNat 0 : Nat) + d.2.1

/-- The nearest chord tone strictly above `x`: a non-empty shape has one within an octave (R121). -/
def toneAbove (root : Fin 12) (shape : PitchSet) (x : Int) : Int :=
  x + (((List.range' 1 12).find? fun (d : Nat) => hasClass shape (x + (d : Int) - root.val)).getD 12 : Nat)

/-- The nearest chord tone strictly below `x` (R121). -/
def toneBelow (root : Fin 12) (shape : PitchSet) (x : Int) : Int :=
  x - (((List.range' 1 12).find? fun (d : Nat) => hasClass shape (x - (d : Int) - root.val)).getD 12 : Nat)

/-- `f` applied `k` times. -/
def iterate (f : Int → Int) : Nat → Int → Int
  | 0, x => x
  | k + 1, x => iterate f k (f x)

/-- R122: the highest note at or below n − 12 with the bass's pitch class. -/
def bassNote (bass : Fin 12) (n : Nat) : Int :=
  let top : Int := (n : Int) - 12
  top - (top - bass.val) % 12

/-- R121, R122: the working note of a CHORDAL rank `k`. -/
def chordalNote (shapes : List PitchSet) (c : Chord) (n : Nat) (k : Int) : Int :=
  let shape := shapes.getD c.shape.val 0#12
  if k = 0 then bassNote (c.bass.getD c.root) n
  else if 0 < k then iterate (toneAbove c.root shape) k.toNat n
  else iterate (toneBelow c.root shape) (-k).toNat n

/-- The number of octaves that carry a distance `d` above 0 to 0 or below it. -/
def octavesOver (d : Int) : Int := (d + 11) / 12

/-- R125 steps 1 and 2: raise while below `lo`, then lower while above `hi`. -/
def octaveFold (lo hi t : Int) : Int :=
  let t1 := if t < lo then t + 12 * octavesOver (lo - t) else t
  if hi < t1 then t1 - 12 * octavesOver (t1 - hi) else t1

/-- R125, R127: the folded note and how the fold moved it. -/
def rangeFold (lo hi t : Int) : Int × BasisFold :=
  let u := octaveFold lo hi t
  if u < lo then (if lo - u ≤ u + 12 - hi then (lo, .edge) else (hi, .edge))
  else (u, if u = t then .none else .octave)

/-- R116, R119 to R124: the working note of a plan against a held note, absent for "no target", and the path. -/
def workingNote (t : Tables) (copy : ContextCopy) (plan : Plan) (n : Nat) : Option Int × BasisPath :=
  let slot := t.scales.getD copy.scale.val ⟨0#12, .parallel⟩
  match plan.mode with
  | .scalar => (some (scalarNote slot copy.tonic n plan.amount), .scalar)
  | .chordal =>
    match copy.chord, plan.fallback with
    | some c, _ => (some (chordalNote t.shapes c n plan.amount), .chordal)
    | none, some k => (some (scalarNote slot copy.tonic n k), .fallback)
    | none, none => (none, .noChord)
  | .fixed => (some ((n : Int) + plan.amount), .fixed)
  | .drone => (some plan.amount, .drone)
  | .off => (none, .off)

/-! ### Resolution (section 7.3) -/

/-- What a resolution reads beside the voice: the tables, the context copy, the note reported, and the decider's dev
for a requested shift formed at once. -/
structure Surroundings where
  tables : Tables
  copy : ContextCopy
  note : Option Nat
  dev : Int
  deriving DecidableEq, Repr

/-- R126, R127: form the interval goal of target `t` against note `n`, and hand it to the renderer when it differs
from the goal before, or when there was none. -/
def Voice.setGoal (v : Voice) (dev : Int) (t n : Nat) : Voice :=
  let g : Int := 32 * ((t : Int) - n)
  if v.res.goal = some g then v
  else { res := { v.res with goal := some g }, ren := v.ren.takeGoal v.res.plan dev g }

/-- R116, R125 to R127: resolve a voice against note `n`. -/
def Voice.resolveAt (v : Voice) (e : Surroundings) (n : Nat) : Voice :=
  match workingNote e.tables e.copy v.res.plan n with
  | (some w, path) =>
    let f := rangeFold v.res.plan.low v.res.plan.high w
    { v with res := { v.res with target := some f.1.toNat, basis := some ⟨path, f.2⟩ } }.setGoal e.dev f.1.toNat n
  | (none, path) =>
    { res := { v.res with target := none, goal := none, basis := some ⟨path, .none⟩ }, ren := v.ren.loseTarget }

/-- R113: the voice's target, interval goal and basis become absent. -/
def Voice.dropTarget (v : Voice) : Voice :=
  { res := { v.res with target := none, goal := none, basis := none }, ren := v.ren.loseTarget }

/-- R113: the staged copy becomes the active plan and its origin the binding. -/
def Voice.takeStaged (v : Voice) (p : Staged) : Voice :=
  { v with res := { v.res with plan := p.plan, binding := p.origin, staged := none } }

/-- Whether voice `i` is enabled in the context copy. -/
def Surroundings.enabled (e : Surroundings) (i : Fin 4) : Bool := switchSet e.copy.switches (.enable i)

/-- R113: adopt a plan: replace the active plan, then resolve, or leave the voice without a target. -/
def Voice.adopt (v : Voice) (e : Surroundings) (i : Fin 4) (p : Staged) : Voice :=
  let u := v.takeStaged p
  match e.enabled i, e.note with
  | true, some n => u.resolveAt e n
  | _, _ => u.dropTarget

/-- How a staging is handed over (R112): held for a note-start publication, or with its adoption field. -/
inductive Handing where
  | held
  | immediate
  | next
  deriving DecidableEq, Repr

/-- R112: place a staged copy on a voice, and adopt it at once when it is IMMEDIATE or the voice is IDLE. -/
def Voice.stage (v : Voice) (e : Surroundings) (i : Fin 4) (p : Staged) (h : Handing) : Voice :=
  let u := { v with res := { v.res with staged := some p } }
  match h with
  | .held => u
  | .immediate => u.adopt e i p
  | .next => if u.ren.state = .idle then u.adopt e i p else u

/-! ### Publications (R70, R117, R118) -/

/-- The kinds of publication; a note event carries its note or notes (R70). -/
inductive PublicationKind where
  | noteOn (note : Nat)
  | noteChange (old : Nat) (new : Nat)
  | noteOff (note : Nat)
  | context
  deriving DecidableEq, Repr

/-- A publication's list of what changed: KEY, SCALE, CHORD, chord usability, table contents, and which switches (R70). -/
structure Changes where
  key : Bool
  scale : Bool
  chord : Bool
  usability : Bool
  table : Bool
  switches : BitVec 8
  deriving DecidableEq, Repr

/-- A publication of the context unit to the voice resolver: its kind, the context it carries and what changed (R70). -/
structure Publication where
  kind : PublicationKind
  context : ContextCopy
  changes : Changes
  deriving DecidableEq, Repr

/-- R117: whether anything but the switch word changed. -/
def Changes.ordinary (c : Changes) : Bool := c.key || c.scale || c.chord || c.usability || c.table

/-- R118: whether the publication carries a forced trigger for voice `i`: its enable went from clear to set, or FREEZE from
set to clear. -/
def forcedBySwitch (c : Changes) (e : Surroundings) (i : Fin 4) : Bool :=
  (switchSet c.switches (.enable i) && e.enabled i) || (switchSet c.switches .freeze && !switchSet e.copy.switches .freeze)

/-- Whether an ordinary trigger resolves the voice: FREEZE is clear, or the voice has no target (R117). -/
def Voice.heedsOrdinary (v : Voice) (e : Surroundings) : Bool := !switchSet e.copy.switches .freeze || v.res.target.isNone

/-- R114, R117, R126: a voice at a NOTE-ON or NOTE-CHANGE publication with note `n`. -/
def Voice.atNoteStart (v : Voice) (e : Surroundings) (c : Changes) (i : Fin 4) (n : Nat) : Voice :=
  match v.res.staged with
  | some p => v.adopt { e with note := some n } i p
  | none =>
    if e.enabled i && (forcedBySwitch c e i || v.heedsOrdinary e) then v.resolveAt e n
    else
      match v.res.target with
      | some t => v.setGoal e.dev t n
      | none => v

/-- R116 to R118: a voice at a CONTEXT publication. -/
def Voice.atContext (v : Voice) (e : Surroundings) (c : Changes) (i : Fin 4) : Voice :=
  match e.note with
  | some n => if e.enabled i && (forcedBySwitch c e i || (c.ordinary && v.heedsOrdinary e)) then v.resolveAt e n else v
  | none => v

/-- R117: a voice at a publication. -/
def Voice.atPublication (v : Voice) (p : Publication) (e : Surroundings) (i : Fin 4) : Voice :=
  match p.kind with
  | .noteOn n => v.atNoteStart e p.changes i n
  | .noteChange _ n => v.atNoteStart e p.changes i n
  | .noteOff _ => v
  | .context => v.atContext e p.changes i

/-- What the resolver reads now. -/
def State.surroundings (s : State) : Surroundings :=
  { tables := s.tables, copy := s.copy, note := s.decider.state.note, dev := s.decider.dev }

/-- R112, R113: stage a plan on voice `i`. -/
def State.stageOn (s : State) (i : Fin 4) (p : Staged) (h : Handing) : State :=
  { s with voices := s.voices.update i fun v => v.stage s.surroundings i p h }

end Sys2Proof.Machine
end

