-- ==== Sys2Proof/Machine/Context.lean ====
section
/-! DEFINITION. The context unit (chapter 4): write arbitration, pins and shadows, the switch word, hush, chord
usability, publications, and the answers of the context commands. -/

namespace Sys2Proof.Machine

/-! ### Usability and publications (R69, R70) -/

/-- Whether a line condition sets a chord line chord aside (R69). -/
def LineCondition.setsAside : LineCondition → Bool
  | .stale => true
  | .lost => true
  | .broken => true
  | .off => false
  | .listening => false
  | .active => false

/-- R69: whether the chord in force is usable. -/
def Context.usable (c : Context) : Bool :=
  c.chord.value.isSome &&
    !(switchSet c.switches .stalefall && decide (c.chord.owner = .source (.auto .chordline)) && c.lineCond.setsAside)

/-- R70: the context a publication carries: tonic, scale slot, usable chord, switch word. -/
def Context.published (c : Context) : ContextCopy :=
  { tonic := c.key.value, scale := c.scale.value, chord := if c.usable then c.chord.value else none, switches := c.switches }

/-- R70: what changed between two contexts, and whether table contents in force changed with them (R42, R45). -/
def Context.changes (before after : Context) (table : Bool) : Changes :=
  { key := decide (before.key.value ≠ after.key.value)
    scale := decide (before.scale.value ≠ after.scale.value)
    chord := decide (before.chord.value ≠ after.chord.value)
    usability := before.usable != after.usable
    table := table
    switches := before.switches ^^^ after.switches }

/-- R70: whether a change is a context change. -/
def Changes.any (c : Changes) : Bool := c.ordinary || c.switches != 0#8

/-- R117, R129: a voice after a publication: the resolver's part, and the renderer's copy of its enable. -/
def Voice.afterPublication (v : Voice) (p : Publication) (e : Surroundings) (i : Fin 4) : Voice :=
  let u := v.atPublication p e i
  { u with ren := { u.ren with enable := e.enabled i } }

/-- R117, R129: the resolver and the renderer take a publication; every sound condition is then tested afresh. -/
def State.deliver (s : State) (p : Publication) : State :=
  let e : Surroundings := { tables := s.tables, copy := p.context, note := s.decider.state.note, dev := s.decider.dev }
  { s with copy := p.context, voices := s.voices.mapIdx fun i (v : Voice) => v.afterPublication p e i }.retest

/-- R70: the context unit publishes the context in force. -/
def State.publish (s : State) (k : PublicationKind) (c : Changes) : State := s.deliver ⟨k, s.ctx.published, c⟩

/-- R70: the CONTEXT publication for the changes since `before`, if there are any. -/
def State.publishChanges (s : State) (before : Context) (table : Bool) : State :=
  let c := before.changes s.ctx table
  if c.any then s.publish .context c else s

/-- R71: the list of a note start: every change that the queue head made, from `before` to `mid`, and every change that the
cue step made, from `mid` to `after`; chord usability is judged on the result. -/
def Context.noteChanges (before mid after : Context) : Changes :=
  let a := before.changes mid false
  let b := mid.changes after false
  { key := a.key || b.key, scale := a.scale || b.scale, chord := a.chord || b.chord, usability := before.usable != after.usable,
    table := false, switches := a.switches ||| b.switches }

/-- R72: the publication of a note event, with every change made since `before`. -/
def State.publishNote (s : State) (k : PublicationKind) (before : Context) : State := s.publish k (before.changes s.ctx false)

/-! ### Field writes (R54 to R57, R60, R61) -/

/-- The outcome of a field write (Table 4.2). -/
inductive WriteResult where
  | applied
  | shadowed
  | outranked
  deriving DecidableEq, Repr

/-- R54 to R56, Table 4.2: a field write of `v` from source `x`, with a pin request. -/
def Field.write {α : Type} (f : Field α) (v : α) (x : Source) (pin : Bool) : Field α × WriteResult :=
  match x, f.pin with
  | .auto a, none => (⟨v, .source (.auto a), none, none⟩, .applied)
  | .auto a, some _ => ({ f with shadow := some ⟨v, a⟩ }, .shadowed)
  | .manual m, none => (⟨v, .source (.manual m), if pin then some m else none, none⟩, .applied)
  | .manual m, some y =>
    if rank y ≤ rank m then (⟨v, .source (.manual m), some (higher m y), none⟩, .applied) else (f, .outranked)

/-- R60, R61: a source releases a field's pin; a shadow becomes the value, owned by its source. -/
def Field.release {α : Type} (f : Field α) (m : Manual) : Field α × WriteResult :=
  match f.pin with
  | none => (f, .applied)
  | some y =>
    if rank y ≤ rank m then
      match f.shadow with
      | some sh => (⟨sh.value, .source (.auto sh.source), none, none⟩, .applied)
      | none => ({ f with pin := none }, .applied)
    else (f, .outranked)

/-- A write to KEY; a KEYTRK value applied sets KEYADOPT (R54). -/
def State.writeKey (s : State) (v : Fin 12) (x : Source) (pin : Bool) : State × WriteResult :=
  let w := s.ctx.key.write v x pin
  ({ s with ctx := { s.ctx with key := w.1 } }.raiseIf (decide (w.2 = WriteResult.applied ∧ x = Source.auto .keytrk)) .keyAdopt, w.2)

/-- A write to SCALE. -/
def State.writeScale (s : State) (v : Fin 8) (x : Source) (pin : Bool) : State × WriteResult :=
  let w := s.ctx.scale.write v x pin
  ({ s with ctx := { s.ctx with scale := w.1 } }, w.2)

/-- A write to CHORD. -/
def State.writeChord (s : State) (v : Option Chord) (x : Source) (pin : Bool) : State × WriteResult :=
  let w := s.ctx.chord.write v x pin
  ({ s with ctx := { s.ctx with chord := w.1 } }, w.2)

/-- A write of an automatic source to CHORD. -/
def State.autoChord (s : State) (v : Option Chord) (a : Auto) : State := (s.writeChord v (.auto a) false).1

/-- A write of an automatic source to KEY. -/
def State.autoKey (s : State) (v : Fin 12) (a : Auto) : State := (s.writeKey v (.auto a) false).1

/-- A write of an automatic source to SCALE. -/
def State.autoScale (s : State) (v : Fin 8) (a : Auto) : State := (s.writeScale v (.auto a) false).1

/-- Whether a scale slot is non-empty (R38). -/
def Tables.scaleFilled (t : Tables) (k : Fin 8) : Bool := (t.scales.getD k.val ⟨0#12, .parallel⟩).members != 0#12

/-- Whether a shape slot is non-empty (R43). -/
def Tables.shapeFilled (t : Tables) (k : Fin 16) : Bool := t.shapes.getD k.val 0#12 != 0#12

/-! ### The switch word (R62 to R66) -/

/-- The switches a write may change: all for DESK, else those outside the lock mask (R63). -/
def freeSwitches (lock : BitVec 8) (src : Manual) : BitVec 8 := if src = .desk then BitVec.allOnes 8 else ~~~lock

/-- R66: a new switch word; CHORD from set to clear flushes the chord queue. -/
def State.setSwitches (s : State) (w : BitVec 8) : State :=
  let t := { s with ctx := { s.ctx with switches := w } }
  if switchSet s.ctx.switches .chord && !switchSet w .chord then t.flushQueue else t

/-- R64: the switch word after a cue step's masks. -/
def cueSwitchWord (w lock set clear : BitVec 8) : BitVec 8 := (w ||| (set &&& ~~~lock)) &&& ~~~(clear &&& ~~~lock)

/-- R63: a manual switch write to the word `w`, answering the word and the masked set. -/
def State.switchWrite (s : State) (w masked : BitVec 8) : Answer :=
  ((s.setSwitches w).publishChanges s.ctx false, .done, [w, masked])

/-- R63, PUT. -/
def State.answerPut (s : State) (src : Manual) (arg : Byte) : Answer :=
  let free := freeSwitches s.ctx.lockMask src
  s.switchWrite ((s.ctx.switches &&& ~~~free) ||| (arg &&& free)) ((s.ctx.switches ^^^ arg) &&& ~~~free)

/-- R63, SET. -/
def State.answerSet (s : State) (src : Manual) (arg : Byte) : Answer :=
  let free := freeSwitches s.ctx.lockMask src
  s.switchWrite (s.ctx.switches ||| (arg &&& free)) (arg &&& ~~~s.ctx.switches &&& ~~~free)

/-- R63, CLEAR. -/
def State.answerClear (s : State) (src : Manual) (arg : Byte) : Answer :=
  let free := freeSwitches s.ctx.lockMask src
  s.switchWrite (s.ctx.switches &&& ~~~(arg &&& free)) (arg &&& s.ctx.switches &&& ~~~free)

/-- R65: LOCKSW replaces the lock mask. -/
def State.answerLocksw (s : State) (mask : Byte) : Answer := ({ s with ctx := { s.ctx with lockMask := mask } }, .done, [mask])

/-! ### The context commands -/

/-- The data of a field's reply: value, owner, pin holder (R54). -/
def fieldData {α : Type} (f : Field α) (bytes : α → List Byte) : List Byte := bytes f.value ++ [f.owner.sourceCode, holderByte f.pin]

/-- The reply of a manual field write (R54, R56). -/
def writeCode : WriteResult → ReplyCode
  | .outranked => .outranked
  | .applied => .done
  | .shadowed => .done

/-- R58: SETKEY. -/
def State.answerSetkey (s : State) (src : Manual) (tonic pin : Byte) : Answer :=
  match readFin 12 tonic, readPin pin with
  | some t, some p =>
    let w := s.writeKey t (.manual src) p
    (w.1.publishChanges s.ctx false, writeCode w.2, fieldData w.1.ctx.key fun x => [finByte x])
  | _, _ => answer s .range

/-- R58: SETSCALE. -/
def State.answerSetscale (s : State) (src : Manual) (slot pin : Byte) : Answer :=
  match readFin 8 slot, readPin pin with
  | some k, some p =>
    if s.tables.scaleFilled k then
      let w := s.writeScale k (.manual src) p
      (w.1.publishChanges s.ctx false, writeCode w.2, fieldData w.1.ctx.scale fun x => [finByte x])
    else answer s .empty
  | _, _ => answer s .range

/-- A bass that equals the root is stored absent (R59, R84, R146). -/
def storedBass (root : Fin 12) (b : Option (Fin 12)) : Option (Fin 12) := if b = some root then none else b

/-- R59, R146: the chord of a record of kind CHORD; `none` when a field is out of range. -/
def readChord (c : Cmd) (b : ChordBytes) : Option Chord :=
  match readFin 12 b.root, readFin 16 b.shape with
  | some r, some k =>
    if readMark c b.bassMark then
      match readFin 12 b.bass with
      | some x => some ⟨r, k, storedBass r (some x)⟩
      | none => none
    else some ⟨r, k, none⟩
  | _, _ => none

/-- A passed SETCHORD: the field write, its publication and its reply (R59). -/
def State.answerChordWrite (s : State) (src : Manual) (v : Option Chord) (p : Bool) : Answer :=
  let w := s.writeChord v (.manual src) p
  (w.1.publishChanges s.ctx false, writeCode w.2, fieldData w.1.ctx.chord chordBytes)

/-- R59: SETCHORD. -/
def State.answerSetchord (s : State) (src : Manual) (pin : Byte) (c : ChordBytes) : Answer :=
  match readPin pin with
  | none => answer s .range
  | some p =>
    if c.kind = 0#8 then s.answerChordWrite src none p
    else if c.kind = 1#8 then
      match readChord .setchord c with
      | none => answer s .range
      | some v => if s.tables.shapeFilled v.shape then s.answerChordWrite src (some v) p else answer s .empty
    else answer s .range

/-- The reply to UNPIN: DONE with the field's value, owner and pin, or OUTRANKED with no data (R60, R169). That the DONE of a
field found unpinned carries the same data is DEDUCED, unsafe; log entry 19. -/
def unpinAnswer {α : Type} (s t : State) (f : Field α × WriteResult) (bytes : α → List Byte) : Answer :=
  if f.2 = .outranked then answer s .outranked else (t.publishChanges s.ctx false, .done, fieldData f.1 bytes)

/-- R60, R61: UNPIN; a KEYTRK shadow applied to KEY sets KEYADOPT. -/
def State.answerUnpin (s : State) (src : Manual) (field : Byte) : Answer :=
  if field = 0#8 then
    let r := s.ctx.key.release src
    let adopts := s.ctx.key.pin.isSome && s.ctx.key.shadow.any fun x => x.source == .keytrk
    unpinAnswer s ({ s with ctx := { s.ctx with key := r.1 } }.raiseIf adopts .keyAdopt) r fun x => [finByte x]
  else if field = 1#8 then
    let r := s.ctx.scale.release src
    unpinAnswer s { s with ctx := { s.ctx with scale := r.1 } } r fun x => [finByte x]
  else if field = 2#8 then
    let r := s.ctx.chord.release src
    unpinAnswer s { s with ctx := { s.ctx with chord := r.1 } } r chordBytes
  else answer s .range

/-- R67: HUSH. The reply's data is the request mark (0 taken, 1 masked) and the holder. -/
def State.answerHush (s : State) (src : Manual) : Answer :=
  match s.ctx.hush with
  | none => ({ s with ctx := { s.ctx with hush := some src } }.cutVoices, .done, [0#8, manualCode src])
  | some y => (s, .done, [1#8, manualCode y])

/-- R68: RESUME. -/
def State.answerResume (s : State) (src : Manual) : Answer :=
  match s.ctx.hush with
  | none => answer s .done
  | some y => if rank y ≤ rank src then answer { s with ctx := { s.ctx with hush := none } }.retest .done else answer s .outranked

/-- R52, R54: a field's bytes in READCONTEXT: value, owner, pin holder, shadow presence, value and source. -/
def fieldBytes {α : Type} (w : Nat) (bytes : α → List Byte) (f : Field α) : List Byte :=
  fieldData f bytes ++ optBytes (w + 1) (fun sh => bytes sh.value ++ [sh.source.sourceCode]) f.shadow

/-- The hush state and its holder. -/
def hushBytes (h : Option Manual) : List Byte := [markByte h.isSome, holderByte h]

/-- R74: READCONTEXT. -/
def State.answerReadcontext (s : State) : Answer :=
  (s, .done,
    fieldBytes 1 (fun x => [finByte x]) s.ctx.key ++ fieldBytes 1 (fun x => [finByte x]) s.ctx.scale ++ fieldBytes 5 chordBytes s.ctx.chord ++
      [s.ctx.switches, s.ctx.lockMask] ++ hushBytes s.ctx.hush ++ [conditionByte s.ctx.lineCond, markByte s.ctx.usable])

end Sys2Proof.Machine
end

