-- ==== Sys2Proof/Machine/Line.lean ====
section
/-! DEFINITION. The chord line (chapter 5): line condition, receiver, frame assembler, chord matcher, and the
answers of CHORDLINE. -/

namespace Sys2Proof.Machine

/-! ### Line condition (R86 to R90) -/

/-- R88: the condition that the settings, the marks and the silence counter give. -/
def Line.derived (l : Line) : LineCondition :=
  if !l.settings.enable then .off
  else if l.broken then .broken
  else if l.settings.lost ≠ 0 ∧ 8 * l.settings.lost ≤ l.silence then .lost
  else if l.settings.stale ≠ 0 ∧ 8 * l.settings.stale ≤ l.silence then .stale
  else if l.frameSeen then .active
  else .listening

/-- R90, part 3: under break action CLEAR, "none" replaces a chord owned by CHORDLINE. -/
def State.breakAction (s : State) : State :=
  if s.line.settings.breakAction = .clear ∧ s.ctx.chord.owner = .source (.auto .chordline) then s.autoChord none .chordline else s

/-- R90: the actions on entering `c`; none unless it is LOST or BROKEN. -/
def State.lossActions (s : State) (c : LineCondition) : State :=
  match c with
  | .lost => (s.flushQueue.raise .lineLost).breakAction
  | .broken => s.flushQueue.breakAction
  | .off => s
  | .listening => s
  | .active => s
  | .stale => s

/-- R89: the line condition becomes `c`; a change is handed to the context unit with the entry actions of R90, as one
event. -/
def State.handCondition (s : State) (c : LineCondition) : State :=
  if c = s.line.cond then s
  else
    let t := s.lossActions c
    { t with line := { t.line with cond := c }, ctx := { t.ctx with lineCond := c } }.publishChanges s.ctx false

/-- R89: derive the condition and hand on a change. -/
def State.deriveCondition (s : State) : State := s.handCondition s.line.derived

/-- R86: the silence counter at a hop. -/
def Line.atHop (l : Line) : Line := if l.settings.enable then { l with silence := min 4095 (l.silence + 1) } else l

/-! ### Frames (R84, R85) -/

/-- The content of a valid frame (Table 5.3). CLEAR carries the chord value "none". -/
inductive FrameContent where
  | chord (value : Option Chord) (applyAt : ApplyAt)
  | notes (applyAt : ApplyAt) (notes : List Nat)
  | key (tonic : Fin 12) (scale : Fin 8)
  | alive
  deriving DecidableEq, Repr

/-- A CHORD frame's root, shape and apply-at, with the bass already read (R84). -/
def chordContent (t : Tables) (root shape at' : Byte) (bass : Option (Fin 12)) : Option FrameContent :=
  match readFin 12 root, readFin 16 shape, readApplyAt at' with
  | some r, some k, some a => if t.shapeFilled k then some (.chord (some ⟨r, k, storedBass r bass⟩) a) else none
  | _, _, _ => none

/-- R84, Table 5.3: the content of a complete frame, or `none` when it fails a check. -/
def checkFrame (t : Tables) : FrameKind → List Byte → Option FrameContent
  | .chord, [r, k, a] => chordContent t r k a none
  | .chord, [r, k, a, b] =>
    match readFin 12 b with
    | some x => chordContent t r k a (some x)
    | none => none
  | .notes, a :: n :: rest =>
    match readApplyAt a with
    | some x =>
      if (n :: rest).all (fun b => b.toNat < 128) && decide (rest.length ≤ 6) then some (.notes x ((n :: rest).map BitVec.toNat)) else none
    | none => none
  | .key, [tonic, k] =>
    match readFin 12 tonic, readFin 8 k with
    | some x, some y => if t.scaleFilled y then some (.key x y) else none
    | _, _ => none
  | .clear, [a] => (readApplyAt a).map fun x => .chord none x
  | .alive, [] => some .alive
  | _, _ => none

/-- R85, R93: a chord with apply-at NOW: the queue is flushed and the chord written as CHORDLINE. -/
def State.chordNow (s : State) (v : Option Chord) : State := (s.flushQueue.autoChord v .chordline).publishChanges s.ctx false

/-- R85, R93: a chord with its apply-at. -/
def State.chordAt (s : State) (v : Option Chord) : ApplyAt → State
  | .now => s.chordNow v
  | .onset => s.appendQueue ⟨v, .onset⟩
  | .phrase => s.appendQueue ⟨v, .phrase⟩

/-- R85, part 3: a valid frame's content is acted on. -/
def State.frameContent (s : State) : FrameContent → State
  | .chord v a => s.chordAt v a
  | .notes a l => { s with matcher := some ⟨a, l, s.tables.shapes, false⟩, line := { s.line with assembler := .matching } }
  | .key t k => ((s.autoKey t .chordline).autoScale k .chordline).publishChanges s.ctx false
  | .alive => s

/-- The assembler in another state. -/
def State.setAssembler (s : State) (a : Assembler) : State := { s with line := { s.line with assembler := a } }

/-- R85: a valid frame. -/
def State.validFrame (s : State) (f : FrameContent) : State :=
  let t := { s with line := { s.line with assembler := .hunt, silence := 0, frameSeen := true, broken := false } }.deriveCondition
  if switchSet t.ctx.switches .chord then t.frameContent f else t

/-- A frame or header is discarded: FRAMEDROP, and the assembler in HUNT (R82 to R84). -/
def State.dropFrame (s : State) : State := (s.setAssembler .hunt).raise .frameDrop

/-- R84: a complete frame. -/
def State.completeFrame (s : State) (k : FrameKind) (data : List Byte) : State :=
  match checkFrame s.tables k data with
  | some f => s.validFrame f
  | none => s.dropFrame

/-! ### Frame assembler (R82, R83) -/

/-- R82: a header's data value: kind in bits 7 to 4, data count in bits 3 to 0 (Table 10.3). -/
def State.takeHeader (s : State) (v : Byte) : State :=
  match readFrameKind (v.toNat / 16) with
  | none => s.dropFrame
  | some k =>
    let n := v.toNat % 16
    if 8 < n then s.dropFrame else if n = 0 then s.completeFrame k [] else s.setAssembler (.frame k n [])

/-- R82: a character in HUNT. -/
def State.huntChar (s : State) (c : LineChar) : State :=
  if !c.marker then s.setAssembler .hunt else if c.framing || c.parity then s.dropFrame else s.takeHeader c.value

/-- R83: a character in FRAME. -/
def State.frameChar (s : State) (k : FrameKind) (n : Nat) (data : List Byte) (c : LineChar) : State :=
  if c.gap then s.huntChar c
  else if c.framing || c.parity then s.dropFrame
  else if c.marker then (s.raise .frameDrop).huntChar c
  else if n ≤ data.length + 1 then s.completeFrame k (data ++ [c.value])
  else s.setAssembler (.frame k n (data ++ [c.value]))

/-- R77: the assembler takes the oldest character, unless it is in MATCHING. -/
def State.takeChar (s : State) : State :=
  match s.line.fifo with
  | [] => s
  | c :: rest =>
    match s.line.assembler with
    | .matching => s
    | .hunt => { s with line := { s.line with fifo := rest } }.huntChar c
    | .frame k n data => { s with line := { s.line with fifo := rest } }.frameChar k n data c

/-- R77: the assembler takes characters while it can. -/
def State.drain : Nat → State → State
  | 0, s => s
  | k + 1, s => State.drain k s.takeChar

/-! ### Receiver (R75 to R78) -/

/-- R77: a completed character enters the receive FIFO, or is lost to overrun; the assembler then takes what it can. -/
def State.receive (s : State) (c : LineChar) : State :=
  if s.line.fifo.length < 2 then
    State.drain 2 { s with line := { s.line with fifo := s.line.fifo ++ [{ c with gap := s.line.gapPending }], gapPending := false } }
  else { s with line := { s.line with gapPending := true } }.raise .overrun

/-- The bits of a character at a parity setting: 11, or 12 with a parity bit (section 5.1.2). -/
def characterBits : Parity → Nat
  | .none => 11
  | .even => 12
  | .odd => 12

/-- R75: the majority of three samples of every bit. -/
def majorityBits (s1 s2 s3 : BitVec 12) : BitVec 12 := (s1 &&& s2) ||| (s1 &&& s3) ||| (s2 &&& s3)

/-- R75: whether the three samples of any of the first `n` bits disagree. -/
def samplesDisagree (n : Nat) (s1 s2 s3 : BitVec 12) : Bool :=
  (List.range n).any fun i => s1.getLsbD i != s2.getLsbD i || s1.getLsbD i != s3.getLsbD i

/-- R76: whether the number of 1 bits among data, marker and parity bits (bits 1 to 10) is odd. -/
def onesOdd (b : BitVec 12) : Bool := (List.range' 1 10).foldl (fun x i => x ^^ b.getLsbD i) false

/-- R76: the parity error mark. -/
def parityError (p : Parity) (b : BitVec 12) : Bool :=
  match p with
  | .none => false
  | .even => onesOdd b
  | .odd => !onesOdd b

/-- R76: the character that the bits' values give; the gap mark is the FIFO's. -/
def lineCharOf (p : Parity) (b : BitVec 12) : LineChar :=
  { value := b.extractLsb' 1 8, marker := b.getLsbD 9, framing := !b.getLsbD (characterBits p - 1), parity := parityError p b, gap := false }

/-- R75: after a false start the receiver waits for the next falling edge. -/
def State.awaitEdge (s : State) : State := { s with line := { s.line with wait := .edge } }

/-- R75 to R77: the samples of a character. A start bit whose majority is high is a false start, judged by its own
samples alone; a disabled line has no effect. After a framing error the receiver waits for CLIN to be high. NOISE is set
here, when the character is complete. DESIGN CHOICE, unsafe; log entry 27. -/
def State.character (s : State) (s1 s2 s3 : BitVec 12) : State :=
  if !s.line.settings.enable then s
  else
    let b := majorityBits s1 s2 s3
    if b.getLsbD 0 then (s.raiseIf (samplesDisagree 1 s1 s2 s3) .noise).awaitEdge
    else
      let p := s.line.settings.parity
      let c := lineCharOf p b
      let t := s.raiseIf (samplesDisagree (characterBits p) s1 s2 s3) .noise
      { t with line := { t.line with wait := if c.framing then .high else .edge } }.receive c

/-- R75: a false start. -/
def State.falseStart (s : State) (s1 s2 s3 : Bool) : State :=
  if s.line.settings.enable && majority s1 s2 s3 then (s.raiseIf (s1 != s2 || s1 != s3) .noise).awaitEdge else s

/-- R78, R89: a break. -/
def State.lineBreak (s : State) : State :=
  if s.line.settings.enable then ({ s.raise .lineBreak with line := { s.line with broken := true } }).deriveCondition else s

/-! ### Chord matcher (R91 to R93) -/

/-- R92: the set P of pitch classes of the notes. -/
def notesSet (l : List Nat) : PitchSet := l.foldl (fun p n => p ||| BitVec.twoPow 12 (n % 12)) 0#12

/-- R92: the shape's member set turned up by the root. -/
def chordSet (shape : PitchSet) (root : Nat) : PitchSet := shape.rotateLeft root

/-- The number of members of a set. -/
def setSize (p : PitchSet) : Nat := (membersOf p).length

/-- R92: the score of a root and a shape. -/
def matchScore (p c : PitchSet) : Int := 4 * setSize (p &&& c) - 3 * setSize (p &&& ~~~c) - 2 * setSize (c &&& ~~~p)

/-- A scored pair of root and shape slot. -/
structure Candidate where
  root : Fin 12
  shape : Fin 16
  score : Int
  deriving DecidableEq, Repr

/-- R92: whether `a` comes before `b`: score, root equal to lowest, lower slot, lower root. -/
def Candidate.beats (lowest : Fin 12) (a b : Candidate) : Bool :=
  if a.score ≠ b.score then decide (b.score < a.score)
  else if decide (a.root = lowest) != decide (b.root = lowest) then decide (a.root = lowest)
  else if a.shape ≠ b.shape then decide (a.shape < b.shape)
  else decide (a.root < b.root)

/-- R92: every pair of a root in P and a non-empty shape slot, scored. -/
def candidates (shapes : List PitchSet) (p : PitchSet) : List Candidate :=
  (List.finRange 12).flatMap fun r =>
    if p.getLsbD r.val then
      (List.finRange 16).filterMap fun k =>
        let shape := shapes.getD k.val 0#12
        if shape = 0#12 then none else some ⟨r, k, matchScore p (chordSet shape r.val)⟩
    else []

/-- R92: the pitch class of the smallest note value. -/
def lowestClass (l : List Nat) : Fin 12 := Fin.ofNat 12 (l.foldl min (l.headD 0))

/-- R92: the winning pair. -/
def matchWinner (shapes : List PitchSet) (notes : List Nat) : Option Candidate :=
  (candidates shapes (notesSet notes)).foldl
    (fun best c =>
      match best with
      | none => some c
      | some b => if c.beats (lowestClass notes) b then some c else some b)
    none

/-- R92: the chord of an accepted match, or `none` for an unrecognised one. -/
def matchResult (shapes : List PitchSet) (notes : List Nat) : Option Chord :=
  match matchWinner shapes notes with
  | some w => if 8 ≤ w.score then some ⟨w.root, w.shape, storedBass w.root (some (lowestClass notes))⟩ else none
  | none => none

/-- R93: a match's result is handled. -/
def State.matchOutcome (s : State) (m : Match) : State :=
  if m.discarded then s
  else
    match matchResult m.shapes m.notes with
    | none => s.raise .unrecognized
    | some c => s.chordAt (some c) m.applyAt

/-- R91, R93: the match in progress ends; the assembler returns to HUNT and resumes taking characters. -/
def State.matchEnd (s : State) : State :=
  match s.matcher with
  | none => s
  | some m => State.drain 2 ({ s with matcher := none }.matchOutcome m |>.setAssembler .hunt)

/-! ### Settings (R79, R80) -/

/-- R79: an assembler in FRAME returns to HUNT; one in MATCHING stays. -/
def Assembler.abandoned : Assembler → Assembler
  | .hunt => .hunt
  | .frame _ _ _ => .hunt
  | .matching => .matching

/-- R79, part 3: the FIFO is emptied, the frame in progress discarded, and the receiver waits for CLIN to be high. -/
def Line.abandonReception (l : Line) : Line :=
  { l with wait := .high, fifo := [], gapPending := false, assembler := l.assembler.abandoned }

/-- R80: disabling. -/
def State.disableLine (s : State) : State :=
  let t := { s with line := { s.line.abandonReception with frameSeen := false, broken := false } }
  t.flushQueue.handCondition .off

/-- R80: enabling. -/
def State.enableLine (s : State) : State :=
  { s with line := { s.line with wait := .high, silence := 0, frameSeen := false, broken := false } }.handCondition .listening

/-- R79: the six settings; `none` when one is out of range. -/
def readLine (b : LineBytes) (enable : Option Bool) : Option LineSettings :=
  match readBaud b.baud, readParity b.parity, readBreakAction b.breakAction, enable with
  | some baud, some parity, some act, some e =>
    some { baud := baud, parity := parity, stale := b.stale.toNat, lost := b.lost.toNat, breakAction := act, enable := e }
  | _, _, _, _ => none

/-- R79, parts 1 to 3: what the receiver does when the settings `old` have given way to those in force. -/
def State.lineChanged (s : State) (old : LineSettings) : State :=
  let new := s.line.settings
  if old.enable && !new.enable then s.disableLine
  else if !old.enable && new.enable then s.enableLine
  else if new.enable && (old.baud != new.baud || old.parity != new.parity) then { s with line := s.line.abandonReception }
  else s

/-- R79, part 4: while the line is enabled its condition is derived afresh. -/
def State.lineThresholds (s : State) : State := if s.line.settings.enable then s.deriveCondition else s

/-- R79: CHORDLINE, its enable already read. -/
def State.answerLine (s : State) (b : LineBytes) (enable : Option Bool) : Answer :=
  match readLine b enable with
  | none => answer s .range
  | some new => answer ({ s with line := { s.line with settings := new } }.lineChanged s.line.settings).lineThresholds .done

end Sys2Proof.Machine
end

