-- ==== Sys2Proof/Machine/Cue.lean ====
section
/-! DEFINITION. The cue list (chapter 9): step records, step entry, navigation, advance conditions, and the answers
of the cue commands. -/

namespace Sys2Proof.Machine

/-! ### Loading (R146, R147) -/

/-- An optional field of a record: absent, or its value when that is in range; `none` when it is out of range. -/
def readOptional {α : Type} (present : Bool) (x : Option α) : Option (Option α) := if present then x.map some else some none

/-- R146: an advance condition; `none` when the kind or the count is out of range. -/
def readAdvance (kind : Byte) (count : BitVec 16) : Option Advance :=
  if kind = 0#8 then some .manual
  else if kind = 1#8 then (if 1 ≤ count.toNat ∧ count.toNat ≤ 255 then some (.onsets count.toNat) else none)
  else if kind = 2#8 then (if 1 ≤ count.toNat then some (.dwell count.toNat) else none)
  else none

/-- R146: a cue step's chord field, kind 0 absent, 1 NONE, 2 CHORD; `none` when it is out of range. -/
def readCueChord (b : ChordBytes) : Option (Option (Option Chord)) :=
  if b.kind = 0#8 then some none
  else if b.kind = 1#8 then some (some none)
  else if b.kind = 2#8 then (readChord .cueload b).map fun c => some (some c)
  else none

/-- R146: one binding pair. -/
def readBinding (b : Byte × Byte) : Option (Fin 4 × Fin 16) :=
  match readFin 4 b.1, readFin 16 b.2 with
  | some v, some k => some (v, k)
  | _, _ => none

/-- The bindings list, or `none` when a pair is out of range. -/
def readBindings : List (Byte × Byte) → Option (List (Fin 4 × Fin 16))
  | [] => some []
  | b :: rest =>
    match readBinding b, readBindings rest with
    | some x, some l => some (x :: l)
    | _, _ => none

/-- R146, check 1: the step record whose fields all lie in range. -/
def readCueStep (b : CueBytes) : Option CueStep :=
  match readOptional (readMark .cueload b.keyMark) (readFin 12 b.key), readOptional (readMark .cueload b.scaleMark) (readFin 8 b.scale),
    readCueChord b.chord, readAdvance b.advance b.count, readBindings b.bindings with
  | some key, some scale, some chord, some adv, some binds =>
    some { key := key, scale := scale, chord := chord, setMask := b.setMask, clearMask := b.clearMask, bindings := binds, advance := adv }
  | _, _, _, _, _ => none

/-- R146, check 2: at most 4 pairs, each voice at most once. -/
def bindingsFormed (l : List (Fin 4 × Fin 16)) : Bool := decide (l.length ≤ 4) && decide ((l.map Prod.fst).Nodup)

/-- R146, check 3: the slots a step names are non-empty. -/
def slotsFilled (t : Tables) (c : CueStep) : Bool :=
  (c.scale.all fun k => t.scaleFilled k) && (c.chord.all fun x => x.all fun y => t.shapeFilled y.shape)

/-- R146: CUELOAD. -/
def State.answerCueload (s : State) (step : Byte) (b : CueBytes) : Answer :=
  match readFin 64 step, readCueStep b with
  | some k, some c =>
    if !bindingsFormed c.bindings then answer s .format
    else if !slotsFilled s.tables c then answer s .empty
    else answer { s with tables := { s.tables with cues := s.tables.cues.set k.val c } } .done
  | _, _ => answer s .range

/-- R148, R152: cursor none, counter 0 and STOPPED, entered condition MANUAL. -/
def State.clearCue (s : State) : State := { s with cue := .atReset }

/-- The cursor as a presence byte and a step number (log entry 6). -/
def cursorBytes (c : CueUnit) : List Byte := optBytes 1 (fun k => [finByte k]) c.cursor

/-- R147: CUELEN. -/
def State.answerCuelen (s : State) (length wrap : Byte) : Answer :=
  match readOnOff wrap with
  | none => answer s .range
  | some w =>
    if 64 < length.toNat then answer s .range
    else
      let t := { s with tables := { s.tables with cueLength := length.toNat, wrap := w } }
      let u := if t.cue.cursor.any fun k => decide (length.toNat ≤ k.val) then t.clearCue else t
      (u, .done, [length, onOffByte w] ++ cursorBytes u.cue)

/-! ### Step entry (R149) -/

/-- R149 part 1: the step's fields, each arbitrated alone with source CUE. -/
def State.writeStepFields (s : State) (c : CueStep) : State :=
  let s := match c.key with
    | some v => s.autoKey v .cue
    | none => s
  let s := match c.scale with
    | some v => s.autoScale v .cue
    | none => s
  match c.chord with
  | some v => s.autoChord v .cue
  | none => s

/-- R149 part 2: the step's switch write (R64). -/
def State.writeStepSwitches (s : State) (c : CueStep) : State :=
  s.setSwitches (cueSwitchWord s.ctx.switches s.ctx.lockMask c.setMask c.clearMask)

/-- R149 part 3: the step's stagings, each a copy of the library slot as it stands now. -/
def State.stageStep (s : State) (c : CueStep) (h : Handing) : State :=
  c.bindings.foldl (fun t b => t.stageOn b.1 ⟨t.tables.plans.getD b.2.val planOff, b.2⟩ h) s

/-- R149 parts 4 and 5: the cursor, the counter and CUEADV. -/
def State.setCursor (s : State) (k : Fin 64) (c : CueStep) : State :=
  { s with cue := { cursor := some k, counter := 0, running := true, entered := c.advance } }.raise .cueAdv

/-- The step under a number. -/
def Tables.cueStep (t : Tables) (k : Fin 64) : CueStep := t.cues.getD k.val cueStepEmpty

/-- R149: enter a step outside a note-start operation: one CONTEXT publication, then the stagings. -/
def State.enterStep (s : State) (k : Fin 64) : State :=
  let c := s.tables.cueStep k
  ((((s.writeStepFields c).writeStepSwitches c).publishChanges s.ctx false).stageStep c .next).retest.setCursor k c

/-- R149, R71: enter a step within a note-start operation: the stagings are held for the note's publication. -/
def State.enterStepHeld (s : State) (k : Fin 64) : State :=
  let c := s.tables.cueStep k
  (((s.writeStepFields c).writeStepSwitches c).stageStep c .held).setCursor k c

/-- R150, R155: where the list goes from step `k`: the next step, step 0 under WRAP, or nowhere. -/
def Tables.nextStep (t : Tables) (k : Fin 64) : Option (Fin 64) :=
  if k.val + 1 < t.cueLength then some (Fin.ofNat 64 (k.val + 1)) else if t.wrap then some 0 else none

/-- R155: the one-shot stop. -/
def State.oneShotStop (s : State) : State := { s with cue := { s.cue with running := false } }.raise .cueEnd

/-- R155: an automatic advance by DWELL, outside a note-start operation. -/
def State.advance (s : State) : State :=
  match s.cue.cursor with
  | none => s
  | some k =>
    match s.tables.nextStep k with
    | some j => s.enterStep j
    | none => s.oneShotStop

/-- R153: a note start that advanced the list counts in the new step when that is ONSETS. -/
def CueUnit.countOnset (c : CueUnit) : CueUnit :=
  match c.entered with
  | .onsets _ => { c with counter := 1 }
  | .manual => c
  | .dwell _ => c

/-- R155, R153: an automatic advance by ONSETS, within a note-start operation. -/
def State.advanceHeld (s : State) : State :=
  match s.cue.cursor with
  | none => s
  | some k =>
    match s.tables.nextStep k with
    | some j =>
      let t := s.enterStepHeld j
      { t with cue := t.cue.countOnset }
    | none => s.oneShotStop

/-- R153: the cue unit takes a note start. -/
def State.cueOnset (s : State) : State :=
  match s.cue.entered with
  | .onsets n =>
    if s.cue.cursor.isSome && s.cue.running then
      if s.cue.counter < n then { s with cue := { s.cue with counter := s.cue.counter + 1 } } else s.advanceHeld
    else s
  | .manual => s
  | .dwell _ => s

/-- R154: the cue unit's count at a hop, and whether it has reached h. -/
def CueUnit.atHop (c : CueUnit) : CueUnit × Bool :=
  match c.entered with
  | .dwell h => if c.cursor.isSome && c.running then ({ c with counter := c.counter + 1 }, decide (h ≤ c.counter + 1)) else (c, false)
  | .manual => (c, false)
  | .onsets _ => (c, false)

/-! ### Navigation (R150 to R152) -/

/-- An accepted navigation: the cursor after the entry. -/
def navigated (s : State) : Answer := (s, .done, cursorBytes s.cue)

/-- R150: CUENEXT. -/
def State.answerCuenext (s : State) : Answer :=
  match s.cue.cursor with
  | none => if s.tables.cueLength = 0 then answer s .empty else navigated (s.enterStep 0)
  | some k =>
    match s.tables.nextStep k with
    | some j => navigated (s.enterStep j)
    | none => answer (s.raise .cueEnd) .ended

/-- R151: CUEPREV. -/
def State.answerCueprev (s : State) : Answer :=
  match s.cue.cursor with
  | none => answer s .ended
  | some k =>
    if 0 < k.val then navigated (s.enterStep (Fin.ofNat 64 (k.val - 1)))
    else if s.tables.wrap then navigated (s.enterStep (Fin.ofNat 64 (s.tables.cueLength - 1)))
    else answer s .ended

/-- R151: CUEGOTO. -/
def State.answerCuegoto (s : State) (step : Byte) : Answer :=
  match readFin 64 step with
  | some k => if k.val < s.tables.cueLength then navigated (s.enterStep k) else answer s .range
  | none => answer s .range

/-- R152: CUESTOP. -/
def State.answerCuestop (s : State) : Answer := answer s.clearCue .done

/-- R157: READCUE. Where no step is asked for, the data has no record and no presence byte for one. DEDUCED, unsafe; log
entry 6. -/
def State.answerReadcue (s : State) (mark step : Byte) : Answer :=
  let head := [byteOf s.tables.cueLength, onOffByte s.tables.wrap] ++ cursorBytes s.cue ++ natBytes 2 s.cue.counter ++
    [if s.cue.running then 0#8 else 1#8] ++ advanceBytes s.cue.entered
  if readMark .readcue mark then
    match readFin 64 step with
    | some k => (s, .done, head ++ cueStepBytes (s.tables.cueStep k))
    | none => answer s .range
  else (s, .done, head)

end Sys2Proof.Machine
end

