-- ==== Sys2Proof/Machine/FaultMonitor.lean ====
section
/-! DEFINITION. The fault monitor (chapter 11): causes, output states, the howl check, and the answers of HOWL,
CLEARFAULT and ACKFLAGS. -/

namespace Sys2Proof.Machine

/-- Whether a cause is present (R175). -/
def State.causePresent (s : State) : Cause → Bool
  | .rate => s.rate.causeRate
  | .howl => s.fault.causeHowl

/-- Entry to BYPASS: the flag, and the cut of every voice (R176, R140). -/
def State.enterBypass (s : State) : State :=
  { s with fault := { s.fault with output := .bypass } }.cutVoices.raise .bypass

/-- R176: the output state when cause `k` goes present. -/
def State.causeAppears (s : State) (k : Cause) : State :=
  match s.fault.output with
  | .run => { s with fault := { s.fault with output := .degraded k } }.raise .fault
  | .degraded j => if j = k then s else s.enterBypass
  | .recovering => s.enterBypass
  | .bypass => s

/-- R176: the output state when cause `k` clears. -/
def State.causeClears (s : State) (k : Cause) : State :=
  if s.fault.output = .degraded k then { s with fault := { s.fault with output := .recovering, recovery := 0 } } else s

/-- R173: cause HOWL becomes present. -/
def State.howlAppears (s : State) : State :=
  if s.fault.causeHowl then s else { s with fault := { s.fault with causeHowl := true } }.causeAppears .howl

/-- R173: the howl check at an entry of the decider to SILENT: cause HOWL absent, counter 0, dev0 absent. -/
def State.howlSilent (s : State) : State :=
  let t := { s with fault := { s.fault with causeHowl := false, howlCounter := 0, dev0 := none } }
  if s.fault.causeHowl then t.causeClears .howl else t

/-- R173: whether a report meets every term of the howl check. -/
def howlTerms (f : FaultMonitor) (held : Bool) (confidence level : Nat) (sounding : Bool) (dev : Int) : Bool :=
  held && confidence == 15 && decide (58 ≤ level) && sounding && f.dev0.all fun d => decide ((dev - d).natAbs ≤ 1)

/-- R173: the howl check takes a report; the counter, dev0, and whether the counter, having risen, is W or more. -/
def FaultMonitor.howlReport (f : FaultMonitor) (held : Bool) (confidence level : Nat) (sounding : Bool) (dev : Int) : FaultMonitor × Bool :=
  if f.howlEnable && !f.causeHowl then
    if howlTerms f held confidence level sounding dev then
      ({ f with howlCounter := f.howlCounter + 1, dev0 := if f.howlCounter = 0 then some dev else f.dev0 }, decide (f.window ≤ f.howlCounter + 1))
    else ({ f with howlCounter := 0, dev0 := none }, false)
  else (f, false)

/-- R176: the recovery counter at a hop, and whether it has reached 64. -/
def FaultMonitor.atHop (f : FaultMonitor) : FaultMonitor × Bool :=
  if f.output = .recovering then ({ f with recovery := f.recovery + 1 }, decide (64 ≤ f.recovery + 1)) else (f, false)

/-- R176, R177: the output state becomes RUN and the recovery counter 0; every sound condition is tested afresh. That the
counter becomes 0 where BYPASS gives way to RUN is a DESIGN CHOICE, safe; log entry 25. -/
def State.enterRun (s : State) : State := { s with fault := { s.fault with output := .run, recovery := 0 } }.retest

/-- R174: HOWL. -/
def State.answerHowl (s : State) (enable : Byte) (window : BitVec 16) : Answer :=
  match readOnOff enable with
  | none => answer s .range
  | some e =>
    if 64 ≤ window.toNat ∧ window.toNat ≤ 2048 ∧ window.toNat % 64 = 0 then
      let f := { s.fault with howlEnable := e, window := window.toNat }
      let g := if e then f else { f with howlCounter := 0, dev0 := none }
      ({ s with fault := g }, .done, enable :: bytes16 window)
    else answer s .range

/-- The data of CLEARFAULT's reply: the output state and the two causes (R177). -/
def faultData (s : State) : List Byte := [outputByte s.fault.output, markByte s.rate.causeRate, markByte s.fault.causeHowl]

/-- R177, Table 11.2: CLEARFAULT. -/
def State.answerClearfault (s : State) : Answer :=
  let refused : Answer := (s, .faultActive, faultData s)
  let cleared : Answer := (s.enterRun, .done, faultData s.enterRun)
  match s.fault.output with
  | .run => (s, .done, faultData s)
  | .degraded _ => refused
  | .recovering => if s.rate.causeRate || s.fault.causeHowl then refused else cleared
  | .bypass => if s.rate.causeRate || s.fault.causeHowl then refused else cleared

/-- R179: ACKFLAGS. -/
def State.answerAckflags (s : State) (mask : BitVec 16) : Answer :=
  let t := { s with fault := { s.fault with flags := s.fault.flags &&& ~~~mask } }
  (t, .done, bytes16 t.fault.flags)

end Sys2Proof.Machine
end

