-- ==== Sys2Proof/Machine/KeyTracking.lean ====
section
/-! DEFINITION. The key tracker (chapter 6): integration, decay events, evaluation and proposals, and the answers of
KEYTRACK and READKEYTRK. -/

namespace Sys2Proof.Machine

/-- The total of the accumulators (R98). -/
def accTotal (acc : List Nat) : Nat := acc.foldl (· + ·) 0

/-- R100, R104: every accumulator halved, rounded down. -/
def halve (acc : List Nat) : List Nat := acc.map (· / 2)

/-- R99, R100: add `w` to the accumulator of a pitch class, after a saturation halving where the sum would exceed
65535. -/
def integrate (acc : List Nat) (pc w : Nat) : List Nat :=
  let a := if 65535 < acc.getD pc 0 + w then halve acc else acc
  a.set pc (a.getD pc 0 + w)

/-- R102: the score of tonic `k` for the member set of the scale in force. -/
def keyScore (acc : List Nat) (members : PitchSet) (k : Nat) : Int :=
  2 * ((((List.range 12).filter members.getLsbD).map fun x => acc.getD ((k + x) % 12) 0).foldl (· + ·) 0 : Nat) - (accTotal acc : Int)

/-- The tonics 0 to 11. -/
def tonics : List (Fin 12) := List.finRange 12

/-- R102: the highest score. -/
def bestScore (acc : List Nat) (members : PitchSet) : Int :=
  tonics.foldl (fun m k => max m (keyScore acc members k.val)) (keyScore acc members 0)

/-- R102: the best tonic: the current tonic if it has the highest score, else the lowest that has. -/
def bestTonic (acc : List Nat) (members : PitchSet) (current : Fin 12) : Fin 12 :=
  let m := bestScore acc members
  if keyScore acc members current.val = m then current
  else (tonics.find? fun k => decide (keyScore acc members k.val = m)).getD current

/-- R103, Table 6.2: the outcome of an evaluation. -/
def keyOutcome (current best : Fin 12) (total minTotal margin : Nat) (lead : Int) (switch : Bool) : KeyOutcome :=
  if best = current then .same
  else if total < minTotal then .lowTotal
  else if lead < margin then .margin
  else if !switch then .switchOff
  else .proposed

/-- R102, R103, R105: the evaluation of the accumulators as they stand. -/
def State.evaluateKey (s : State) : Evaluation :=
  let t := s.ctx.key.value
  let slot := s.ctx.scale.value
  let members := (s.tables.scales.getD slot.val ⟨0#12, .parallel⟩).members
  let acc := s.key.acc
  let best := bestTonic acc members t
  let total := accTotal acc
  let margin := total * s.key.margin / 64
  let bs := keyScore acc members best.val
  let cs := keyScore acc members t.val
  { current := t, scale := slot, best := best, bestScore := bs, currentScore := cs, total := total, margin := margin,
    outcome := keyOutcome t best total s.key.minTotal margin (bs - cs) (switchSet s.ctx.switches .keytrk) }

/-- R102 to R105: a decay event's evaluation: the record is replaced, the accumulators are halved and the counter restarts;
the tonic proposed, if one is, waits to reach the context unit. -/
def State.evaluation (s : State) : State :=
  let e := s.evaluateKey
  { s with
    key := { s.key with acc := halve s.key.acc, counter := 0, evaluation := some e }
    due := { s.due with decay := false, proposal := if e.outcome = .proposed then some e.best else none } }

/-- R103, R107: a proposal that waits reaches the context unit. -/
def State.takeProposal (s : State) : State :=
  match s.due.proposal with
  | some k => ({ s with due := { s.due with proposal := none } }.autoKey k .keytrk).publishChanges s.ctx false
  | none => s

/-- R101: the decay counter at a hop, and whether it has reached D. -/
def KeyTracker.atHop (k : KeyTracker) : KeyTracker × Bool := ({ k with counter := k.counter + 1 }, decide (k.decay ≤ k.counter + 1))

/-- R106: the settings a KEYTRACK record carries; `none` when one is out of range. -/
def readKeytrack (b : KeytrackBytes) : Option (Nat × Nat × Nat) :=
  if 16 ≤ b.decay.toNat ∧ b.decay.toNat ≤ 4096 ∧ b.decay.toNat % 16 = 0 ∧ b.margin.toNat ≤ 63 then
    some (b.decay.toNat, b.margin.toNat, b.minTotal.toNat)
  else none

/-- R106, R107: KEYTRACK with action KEEP or CLEAR. A decay event of the last hop that has not been taken is judged against
the new D, and cancelled by CLEAR. -/
def State.answerKeytrack (s : State) (b : KeytrackBytes) (clear : Bool) : Answer :=
  match readKeytrack b with
  | none => answer s .range
  | some (d, m, minTotal) =>
    let k := { s.key with decay := d, margin := m, minTotal := minTotal }
    let k := if clear then { k with acc := List.replicate 12 0, counter := 0 } else k
    ({ s with key := k, due := { s.due with decay := s.due.decay && decide (k.decay ≤ k.counter) } }, .done, natBytes 2 d ++ [byteOf m] ++ natBytes 2 minTotal)

/-- The bytes of an evaluation record, in the order of R105. -/
def evaluationBytes (e : Evaluation) : List Byte :=
  [finByte e.current, finByte e.scale, finByte e.best] ++ intBytes 3 e.bestScore ++ intBytes 3 e.currentScore ++ natBytes 3 e.total ++
    natBytes 3 e.margin ++ [outcomeByte e.outcome]

/-- R108: READKEYTRK. -/
def State.answerReadkeytrk (s : State) : Answer :=
  (s, .done,
    s.key.acc.flatMap (natBytes 2) ++ natBytes 3 (accTotal s.key.acc) ++ natBytes 2 s.key.counter ++ natBytes 2 s.key.decay ++
      [byteOf s.key.margin] ++ natBytes 2 s.key.minTotal ++ optBytes 16 evaluationBytes s.key.evaluation)

end Sys2Proof.Machine
end

