-- ==== Sys2Proof/Machine/Deciding.lean ====
section
/-! DEFINITION. Pitch reports, gate learn and note decider (chapter 2), the note operations of the context unit
(R71, R72), and the answers of TRACKER and LEARN. -/

namespace Sys2Proof.Machine

/-! ### Pitch reports (R17 to R19) -/

/-- A pitch report (R17). -/
structure Report where
  voiced : Bool
  code : Option Nat
  period : Option Nat
  confidence : Nat
  level : Nat
  deriving DecidableEq, Repr

/-- R19: whether a report is voiced. -/
def voicedTest (t : TrackerSettings) (code : Option Nat) (level confidence : Nat) : Bool :=
  code.any fun c => decide (t.low ≤ c ∧ c ≤ t.high ∧ t.gate ≤ level ∧ t.confidence ≤ confidence)

/-- A period search result brought into the ranges of R16; a well-formed result is unchanged. -/
def searchResult : Analysis → Option (Nat × Nat)
  | .noPeriod => none
  | .found p c => some (max 32 (min 32768 p), max 1 (min 15 c))

/-- R16 to R19: the pitch report of a hop, from the period search's result and the peak of the block. -/
def makeReport (t : TrackerSettings) (nrate level : Nat) (a : Analysis) : Report :=
  match searchResult a with
  | none => { voiced := false, code := none, period := none, confidence := 0, level := level }
  | some (p, c) =>
    let code := pitchCode nrate p t.trim
    { voiced := voicedTest t code level c, code := code, period := some p, confidence := c, level := level }

/-! ### The note decider (R28 to R37) -/

/-- R29: the candidate of a voiced code. -/
def candidateOf (c : Nat) : Nat := min 95 ((c + 16) / 32)

/-- R29: whether a code lies inside the capture band of note `n`. -/
def insideBand (h n c : Nat) : Bool := decide ((32 * n : Int) - 16 - h ≤ c ∧ (c : Int) ≤ 32 * n + 15 + h)

/-- The deviation of a code from a note's centre (R28). -/
def deviation (c n : Nat) : Int := (c : Int) - 32 * n

/-- R29 to R31: ONSET with a settle count just set or raised; at S or more the note starts. -/
def settleOnset (s c m count : Nat) : Decider × Option NoteEvent :=
  if s ≤ count then (⟨.held m, deviation c m⟩, some (.noteOn m)) else (⟨.onset m count, 0⟩, none)

/-- R29, R32 to R34: TRANSITION with a settle count just set or raised; at S or more the note changes. -/
def settleTransition (s c n m count : Nat) (dev : Int) : Decider × Option NoteEvent :=
  if s ≤ count then (⟨.held m, deviation c m⟩, some (.noteChange n m)) else (⟨.transition n m count, dev⟩, none)

/-- R29, R32 to R34: RELEASING with a release count just set or raised; at Rl or more the note ends. -/
def releaseCount (rl n count : Nat) (dev : Int) : Decider × Option NoteEvent :=
  if rl ≤ count then (⟨.silent, 0⟩, some (.noteOff n)) else (⟨.releasing n count, dev⟩, none)

/-- R30 to R34: a voiced report with pitch code `c`. -/
def deciderVoiced (t : TrackerSettings) (d : Decider) (c : Nat) : Decider × Option NoteEvent :=
  let m := candidateOf c
  match d.state with
  | .silent => settleOnset t.settle c m 1
  | .onset m0 count => if m = m0 then settleOnset t.settle c m (count + 1) else settleOnset t.settle c m 1
  | .held n =>
    if insideBand t.hysteresis n c then (⟨.held n, deviation c n⟩, none) else settleTransition t.settle c n m 1 d.dev
  | .transition n m0 count =>
    if insideBand t.hysteresis n c then (⟨.held n, deviation c n⟩, none)
    else if m = m0 then settleTransition t.settle c n m (count + 1) d.dev
    else settleTransition t.settle c n m 1 d.dev
  | .releasing n _ =>
    if insideBand t.hysteresis n c then (⟨.held n, deviation c n⟩, none) else settleTransition t.settle c n m 1 d.dev

/-- R30 to R34: an unvoiced report. -/
def deciderUnvoiced (t : TrackerSettings) (d : Decider) : Decider × Option NoteEvent :=
  match d.state with
  | .silent => (⟨.silent, 0⟩, none)
  | .onset _ _ => (⟨.silent, 0⟩, none)
  | .held n => releaseCount t.release n 1 d.dev
  | .transition n _ _ => releaseCount t.release n 1 d.dev
  | .releasing n count => releaseCount t.release n (count + 1) d.dev

/-- R30 to R34: the decider handles a report. -/
def deciderReport (t : TrackerSettings) (d : Decider) (r : Report) : Decider × Option NoteEvent :=
  match r.voiced, r.code with
  | true, some c => deciderVoiced t d c
  | _, _ => deciderUnvoiced t d

/-- The held note, when the decider is HELD. -/
def DeciderState.heldNote : DeciderState → Option Nat
  | .held n => some n
  | _ => none

/-- R36: the decider is forced to SILENT with dev 0 and no note-off; cause HOWL clears and the grain mode becomes
FIXED (R173, R135). -/
def State.forceSilent (s : State) : State :=
  let t := { s with
    decider := ⟨.silent, 0⟩
    renderer := { s.renderer with grainMode := .fixed, grainLength := 2048 } }
  t.howlSilent

/-! ### The gate learn (R23 to R27) -/

/-- R24: a learn in progress takes a report's level. -/
def LearnRecord.observe (l : LearnRecord) (level : Nat) : LearnRecord :=
  { l with count := l.count + 1, smallest := min l.smallest level, largest := max l.largest level, sum := l.sum + level }

/-- R25: the gate a successful learn sets. -/
def LearnRecord.gate (l : LearnRecord) : Nat :=
  match l.method with
  | .peak => min 63 (l.largest + 3)
  | .average => min 63 (l.sum / 64 + 6)

/-- R25: a learn completes: LEARNFAIL when the spread exceeds 12, else a new gate and LEARNDONE. -/
def State.completeLearn (s : State) : State :=
  match s.tracker.learn with
  | none => s
  | some l =>
    let t := { s with tracker := { s.tracker with learn := none } }
    if l.smallest + 12 < l.largest then t.raise .learnFail
    else { t with tracker := { t.tracker with settings := { t.tracker.settings with gate := l.gate } } }.raise .learnDone

/-- R26: a rate loss fails a learn in progress. -/
def State.failLearn (s : State) : State :=
  { s with tracker := { s.tracker with learn := none } }.raiseIf s.tracker.learn.isSome .learnFail

/-- R23: LEARN. -/
def State.answerLearn (s : State) (method : Byte) : Answer :=
  match readLearnMethod method with
  | none => answer s .range
  | some m =>
    if s.rate.state ≠ .locked then answer s .notReady
    else if s.tracker.learn.isSome then answer s .busy
    else answer { s with tracker := { s.tracker with learn := some ⟨m, 0, 63, 0, 0⟩ } } .accepted

/-- R21: the settings a TRACKER record carries; `none` when a check fails. -/
def readTracker (b : TrackerBytes) : Option TrackerSettings :=
  if -16 ≤ b.trim.toInt ∧ b.trim.toInt ≤ 16 ∧ 256 ≤ b.low.toNat ∧ b.low.toNat ≤ 1535 ∧ 1024 ≤ b.high.toNat ∧ b.high.toNat ≤ 2559 ∧
      b.gate.toNat ≤ 63 ∧ 1 ≤ b.confidence.toNat ∧ b.confidence.toNat ≤ 15 ∧ b.hysteresis.toNat ≤ 15 ∧ 1 ≤ b.settle.toNat ∧
      b.settle.toNat ≤ 8 ∧ 1 ≤ b.release.toNat ∧ b.release.toNat ≤ 64 ∧ b.low.toNat + 384 ≤ b.high.toNat then
    some { trim := b.trim.toInt, low := b.low.toNat, high := b.high.toNat, gate := b.gate.toNat, confidence := b.confidence.toNat,
           hysteresis := b.hysteresis.toNat, settle := b.settle.toNat, release := b.release.toNat }
  else none

/-- R21: TRACKER. -/
def State.answerTracker (s : State) (b : TrackerBytes) : Answer :=
  match readTracker b with
  | some t => answer { s with tracker := { s.tracker with settings := t } } .done
  | none => answer s .range

/-! ### The note operations (R71, R72) -/

/-- Step 1 of a note operation: the chord queue's head, if its trigger matches, is written to CHORD as CHORDLINE. -/
def State.takeHead (s : State) (t : Trigger) : State :=
  match queueHead s.queue t with
  | some v => { s with queue := s.queue.drop 1 }.autoChord v .chordline
  | none => s

/-- No note event waits. -/
def State.noteTaken (s : State) : State := { s with due := { s.due with note := none } }

/-- R71: the note-start operation: the queue head, the cue unit, and the publication of kind `k` that ends it. -/
def State.noteStart (s : State) (k : PublicationKind) : State :=
  let head := s.takeHead .onset
  let cued := head.cueOnset.noteTaken
  cued.publish k (s.ctx.noteChanges head.ctx cued.ctx)

/-- R72: the note-off operation of note `n`. -/
def State.noteOff (s : State) (n : Nat) : State := ((s.takeHead .phrase).noteTaken).publishNote (.noteOff n) s.ctx

end Sys2Proof.Machine
end

