-- ==== Sys2Proof/Machine/RateMonitor.lean ====
section
/-! DEFINITION. The rate monitor (chapter 1): classes, acquisition, lock, remeasure, rate loss, and the answers of
RATE. -/

namespace Sys2Proof.Machine

/-- Table 1.9: the class of a measurement; `none` is OUT. -/
def Rate.classOf (r : Rate) (m : Nat) : Option RateClass :=
  match r.mode with
  | .auto => if 64880 ≤ m ∧ m ≤ 66192 then some .k48 else if 70620 ≤ m ∧ m ≤ 72046 then some .k44 else none
  | .manual => if r.windowMin ≤ m ∧ m ≤ r.windowMax then some .manual else none

/-- A list with a newest entry; a fifth entry pushes the oldest out (R8, R14). -/
def joinList (l : List Nat) (m : Nat) : List Nat := (l ++ [m]).drop (l.length - 3)

/-- R8, R14: four entries whose largest minus smallest is 64 or less. -/
def agrees (l : List Nat) : Bool :=
  l.length == 4 && decide (l.foldl max 0 ≤ l.foldl min (l.headD 0) + 64)

/-- The floor of the mean of four entries (R8, R14). -/
def meanOf (l : List Nat) : Nat := l.foldl (· + ·) 0 / 4

/-- R8: the acquisition list and its class after a measurement. -/
def Rate.acquire (r : Rate) (m : Nat) : Rate :=
  match r.classOf m with
  | none => { r with acquisition := [], acquisitionClass := none }
  | some c =>
    if r.acquisition ≠ [] ∧ r.acquisitionClass = some c then { r with acquisition := joinList r.acquisition m }
    else { r with acquisition := [m], acquisitionClass := some c }

/-- R8: the rate monitor locks on the acquisition list. -/
def Rate.lock (r : Rate) (m : Nat) : Rate :=
  { r with
    state := .locked
    lockedClass := r.acquisitionClass
    outCount := 0
    nrate := match r.method with
      | .track => m
      | .hold => meanOf r.acquisition
    acquisition := []
    acquisitionClass := none
    causeRate := false }

/-- R9: whether a measurement lies in the lock window. -/
def Rate.inLock (r : Rate) (m : Nat) : Bool :=
  match r.mode, r.lockedClass with
  | .auto, some .k48 => r.classOf m == some .k48
  | .auto, some .k44 => r.classOf m == some .k44
  | _, _ => (r.classOf m).isSome

/-- R9: the lock record and Nrate after a measurement in the lock window. -/
def Rate.accept (r : Rate) (m : Nat) : Rate :=
  { r with
    outCount := 0
    lockedClass := r.classOf m
    nrate := match r.method with
      | .track => m
      | .hold => r.nrate }

/-- R14: a running remeasure after a measurement, in lock or not, and whether it completes. -/
def Rate.remeasured (r : Rate) (m : Nat) (inLock : Bool) : Rate × Bool :=
  match r.remeasure with
  | none => (r, false)
  | some l =>
    let k := if inLock then joinList l m else []
    if agrees k then
      ({ r with
          remeasure := none
          nrate := match r.method with
            | .track => r.nrate
            | .hold => meanOf k }, true)
    else ({ r with remeasure := some k }, false)

/-- R11: the records of the rate monitor on entering LOST from LOCKED. -/
def Rate.lose (r : Rate) : Rate := { r with state := .lost, causeRate := true, outCount := 0, remeasure := none, run := none }

/-- R11, R26, R36, R143, R176: the rate monitor enters LOST and announces rate loss to the decider, the learn and the
fault monitor. -/
def State.rateLoss (s : State) : State :=
  (({ s with rate := s.rate.lose }.forceSilent.failLearn).causeAppears .rate).retest

/-- R8: a measurement in ACQUIRING, and whether it locked. -/
def State.measureAcquiring (s : State) (m : Nat) : State × Bool :=
  let r := s.rate.acquire m
  if agrees r.acquisition then (({ s with rate := r.lock m }.causeClears .rate).raise .rateLock, true) else ({ s with rate := r }, false)

/-- R9, R14: a measurement in LOCKED, and whether the state is still LOCKED. -/
def State.measureLocked (s : State) (m : Nat) : State × Bool :=
  if s.rate.inLock m then
    let r := (s.rate.accept m).remeasured m true
    ({ s with rate := r.1 }.raiseIf r.2 .rateLock, true)
  else if s.rate.outCount + 1 < 4 then
    let r := { s.rate with outCount := s.rate.outCount + 1 }.remeasured m false
    ({ s with rate := r.1 }, true)
  else (s.rateLoss, false)

/-- R5, R12: a completed measurement in the present rate state, and whether it issues a hop. -/
def State.measure (s : State) (m : Nat) : State × Bool :=
  match s.rate.state with
  | .acquiring => s.measureAcquiring m
  | .locked => s.measureLocked m
  | .unlocked => (s, false)
  | .lost => (s, false)

/-- R10: a frame absence in the present rate state. -/
def State.rateAbsence (s : State) : State :=
  match s.rate.state with
  | .locked => s.rateLoss
  | .acquiring =>
    { s with rate := { s.rate with
        state := if s.rate.causeRate then .lost else .unlocked
        acquisition := []
        acquisitionClass := none
        run := none } }
  | .unlocked => s
  | .lost => s

/-- R7, R11: a frame sync takes the monitor out of UNLOCKED or LOST and begins the first measurement; otherwise the
measurement in progress counts the frame. -/
def Rate.atFrame (r : Rate) : Rate :=
  match r.state with
  | .unlocked => { r with state := .acquiring, acquisition := [], acquisitionClass := none, run := some 0 }
  | .lost => { r with state := .acquiring, acquisition := [], acquisitionClass := none, run := some 0 }
  | .acquiring => { r with run := r.run.map (· + 1) }
  | .locked => { r with run := r.run.map (· + 1) }

/-- R13: the four settings of RATE; `none` when one is out of range. -/
def readRate (b : RateBytes) : Option (RateMode × RateMethod × Nat × Nat) :=
  match readRateMode b.mode, readRateMethod b.method with
  | some mode, some method =>
    if 32768 ≤ b.minimum.toNat ∧ b.minimum.toNat < b.maximum.toNat ∧ b.maximum.toNat ≤ 131071 then
      some (mode, method, b.minimum.toNat, b.maximum.toNat)
    else none
  | _, _ => none

/-- R13: the settings take their place. -/
def Rate.set (r : Rate) (c : RateMode × RateMethod × Nat × Nat) : Rate :=
  { r with mode := c.1, method := c.2.1, windowMin := c.2.2.1, windowMax := c.2.2.2 }

/-- R13: RATE with action NONE. -/
def State.answerRate (s : State) (b : RateBytes) : Answer :=
  match readRate b with
  | none => answer s .range
  | some c => answer { s with rate := s.rate.set c } .done

/-- R13, R14: RATE with action REMEASURE. -/
def State.answerRemeasure (s : State) (b : RateBytes) : Answer :=
  match readRate b with
  | none => answer s .range
  | some c =>
    if s.rate.state = .locked then answer { s with rate := { s.rate.set c with remeasure := some [] } } .accepted
    else answer { s with rate := s.rate.set c } .done

end Sys2Proof.Machine
end

