-- ==== Sys2Proof/Machine/Completions.lean ====
section
/-! DEFINITION. The completions that the table of operations lists as steps of their own: each acts when the last hop
or frame has made it due, and leaves the state as it is otherwise (log entry 1). -/

namespace Sys2Proof.Machine

/-- R25: LEARN_COMPLETE. -/
def State.takeLearn (s : State) : State := if s.due.learn then { s with due := { s.due with learn := false } }.completeLearn else s

/-- R173, R176: HOWL_DECLARED. -/
def State.takeHowl (s : State) : State :=
  if s.due.howl then ({ s with due := { s.due with howl := false } }.howlAppears).retest else s

/-- R176: RECOVERY_COMPLETE; a state that has left RECOVERING meanwhile is unchanged. -/
def State.takeRecovery (s : State) : State :=
  if s.due.recovery then
    let t := { s with due := { s.due with recovery := false } }
    if t.fault.output = .recovering then t.enterRun else t
  else s

/-- R29, R71: the publication of the note start that is due, if one is. -/
def Due.start (d : Due) : Option PublicationKind :=
  match d.note with
  | some (.noteOn n) => some (.noteOn n)
  | some (.noteChange m n) => some (.noteChange m n)
  | some (.noteOff _) => none
  | none => none

/-- R71: the note-start operation, when one is due. -/
def State.takeNoteStart (s : State) : State :=
  match s.due.start with
  | some k => s.noteStart k
  | none => s

/-- R34, R72: RELEASE_COMPLETE, the note-off operation. -/
def State.takeNoteOff (s : State) : State :=
  match s.due.note with
  | some (.noteOff n) => s.noteOff n
  | some (.noteOn _) => s
  | some (.noteChange _ _) => s
  | none => s

/-- R101 to R105: the evaluation of a decay event that is due. -/
def State.takeEvaluation (s : State) : State := if s.due.decay then s.evaluation else s

/-- R154, R155: a DWELL advance, when one is due. -/
def State.takeDwell (s : State) : State := if s.due.dwell then { s with due := { s.due with dwell := false } }.advance else s

/-- R88, R89: SILENCE_THRESHOLD, the condition that the hop's silence count gives. -/
def State.takeSilence (s : State) : State :=
  if s.due.silence then { s with due := { s.due with silence := false } }.deriveCondition else s

/-- R139: FADE_STEP_COUNT, the fade step of 256 frames outside LOCKED. -/
def State.takeFadeStep (s : State) : State := if s.due.fadeStep then { s with due := { s.due with fadeStep := false } }.fadeStep else s

/-- R131, R133: the hop work that the hop's other effects came before. -/
def State.takeRender (s : State) : State := if s.due.render then { s with due := { s.due with render := false } }.hopWork else s

/-- The completions taken before a decay event. -/
def State.completeFirst (s : State) : State := s.takeLearn.takeHowl.takeRecovery.takeNoteStart.takeNoteOff

/-- The completions taken after a decay event's evaluation, but for its proposal. -/
def State.completeLast (s : State) : State := s.takeDwell.takeSilence.takeFadeStep.takeRender

/-- Every completion that is due but the proposal of a decay event, which waits: what a command that may write KEY or SCALE
finds, so that the proposal reaches the context unit after it (R107). -/
def State.evaluated (s : State) : State := s.completeFirst.takeEvaluation.completeLast

/-- Every completion that is due, in the model's order; a cue step entered by a DWELL advance of the same hop reaches the
context unit before the proposal (R107). Each command other than a completion finds the last hop carried out whole, but
for what R107 says of a decay event. DESIGN CHOICE, unsafe; log entry 1. -/
def State.complete (s : State) : State := s.evaluated.takeProposal

/-- Every completion that is due but a decay event: what KEYTRACK finds (R107). -/
def State.completeButDecay (s : State) : State := s.completeFirst.completeLast.takeProposal

/-- R107: an event that may write KEY or SCALE and meets a decay event: the evaluation judges against the values before
the event, and the proposal reaches the context unit after it. DEDUCED, unsafe; log entry 26. -/
def State.meeting (s : State) (f : State → State) : State := (f s.evaluated).takeProposal

/-! ### The rows that meet a decay event (R107, log entry 26) -/

/-- R149, R155: whether a completion that may enter a cue step, and with it write KEY or SCALE, is still to be taken. -/
def Due.mayEnterStep (d : Due) : Bool := d.start.isSome || d.dwell

/-- R107: a proposal that waits is released once no completion of its hop that may enter a cue step is left. -/
def State.releaseProposal (s : State) : State := if s.due.mayEnterStep then s else s.takeProposal

/-- R101 to R105, R107: DECAY_EVENT. A note start or DWELL expiry of the same hop that is left is taken after the
evaluation, and the proposal after it. DEDUCED, unsafe; log entry 26. -/
def State.decayRow (s : State) : State := if s.due.decay then s.evaluation.releaseProposal else s

/-- R29, R71, R107: SETTLE_COMPLETE. -/
def State.settleRow (s : State) : State := if s.due.start.isSome then s.takeNoteStart.releaseProposal else s

/-- R154, R155, R107: DWELL_EXPIRY. -/
def State.dwellRow (s : State) : State := if s.due.dwell then s.takeDwell.releaseProposal else s

/-- R136: the grain boundary of a voice, when the last frame brought one. A pending shift that a rate loss left is adopted as
any other, though R143 says that the applied shift holds. DESIGN CHOICE, unsafe; log entry 28. -/
def RenderRecord.takeBoundary (r : RenderRecord) : RenderRecord := if r.boundaryDue then { r with boundaryDue := false }.adoptShift else r

/-- R136: GRAIN_BOUNDARY of voice `i`. -/
def State.takeBoundary (s : State) (i : Fin 4) : State :=
  { s with voices := s.voices.update i fun v => { v with ren := v.ren.takeBoundary } }

/-! ### Meanings -/

/-- LEARN_COMPLETE (R25). -/
def execLearnComplete (s : State) : Host.Outcome State Fault Refusal := .next s.takeLearn

/-- HOWL_DECLARED (R173, R176). -/
def execHowlDeclared (s : State) : Host.Outcome State Fault Refusal := .next s.takeHowl

/-- RECOVERY_COMPLETE (R176). -/
def execRecoveryComplete (s : State) : Host.Outcome State Fault Refusal := .next s.takeRecovery

/-- SETTLE_COMPLETE (R29, R71, R107). -/
def execSettleComplete (s : State) : Host.Outcome State Fault Refusal := .next s.settleRow

/-- RELEASE_COMPLETE (R34, R72). -/
def execReleaseComplete (s : State) : Host.Outcome State Fault Refusal := .next s.takeNoteOff

/-- DECAY_EVENT (R101 to R105, R107). -/
def execDecayEvent (s : State) : Host.Outcome State Fault Refusal := .next s.decayRow

/-- DWELL_EXPIRY (R154, R155, R107). -/
def execDwellExpiry (s : State) : Host.Outcome State Fault Refusal := .next s.dwellRow

/-- SILENCE_THRESHOLD (R88 to R90). -/
def execSilenceThreshold (s : State) : Host.Outcome State Fault Refusal := .next s.takeSilence

/-- FADE_STEP_COUNT (R139). -/
def execFadeStepCount (s : State) : Host.Outcome State Fault Refusal := .next s.takeFadeStep

/-- GRAIN_BOUNDARY (R136). -/
def execGrainBoundary (i : Fin 4) (s : State) : Host.Outcome State Fault Refusal := .next (s.takeBoundary i)

end Sys2Proof.Machine
end

