-- ==== Sys2Proof/Machine/LineEvents.lean ====
section
/-! DEFINITION. The meanings of the chord line's events (chapter 5). -/

namespace Sys2Proof.Machine

/-- CHARACTER (R75 to R77, R82 to R85, R107). -/
def execCharacter (s1 s2 s3 : BitVec 12) (s : State) : Host.Outcome State Fault Refusal := .next (s.meeting fun t => t.character s1 s2 s3)

/-- FALSE_START (R75). -/
def execFalseStart (s1 s2 s3 : Bool) (s : State) : Host.Outcome State Fault Refusal := .next (s.complete.falseStart s1 s2 s3)

/-- BREAK (R78, R89, R90). -/
def execLineBreak (s : State) : Host.Outcome State Fault Refusal := .next s.complete.lineBreak

/-- MATCH_END (R91 to R93, R107). -/
def execMatchEnd (s : State) : Host.Outcome State Fault Refusal := .next (s.meeting fun t => t.matchEnd)

end Sys2Proof.Machine
end

