-- ==== Sys2Proof/Machine/Frames.lean ====
section
/-! DEFINITION. Frames, frame absence, measurements and hops (chapters 1, 2 and 8), and power-on. -/

namespace Sys2Proof.Machine

/-! ### Output frames (R1, R2, R139 to R142) -/

/-- Whether voice slots and mix are zero: BYPASS or hush (R140). -/
def State.silenced (s : State) : Bool := s.fault.output == .bypass || s.ctx.hush.isSome

/-- R139: the numerator of a voice's gain, over 2048, in the frame being formed, which is frame `ramp` after the last
fade step. -/
def State.voiceGain (s : State) (r : RenderRecord) : Int := r.gain s.renderer.ramp

/-- R3, R141: what the shifters take at the frame being formed. -/
def State.shifterFrame (s : State) : ShifterFrame :=
  { vocal := s.asp.dry.headD 0#24, ratios := s.voices.map fun v => v.ren.ratio, timers := s.voices.map fun v => v.ren.timer }

/-- R141: what a voice's shifter has taken, newest first, with the frame being formed. -/
def State.taken (s : State) (i : Fin 4) : List (Sample × Nat × Nat) :=
  (s.shifterFrame :: s.asp.vocal).map fun f => (f.vocal, f.ratios.get i, f.timers.get i)

/-- R141: a voice's shifted sample, which is open (log entry 3) but where every sample the shifter has taken is zero: it
replays the vocal, and so gives zero (log entry 23). -/
def State.shiftedSample (s : State) (i : Fin 4) : Int :=
  if (s.taken i).all (fun x => x.1 == 0#24) then 0 else Config.shiftedSample s.draws i.val (s.taken i)

/-- Whether an IDLE voice is silent at once (R141, Table 8.5), or carries the ramp of its last fade step (R139): the rules
differ, and which holds is open (log entry 24). -/
def RenderRecord.mute (r : RenderRecord) : Bool := r.state == .idle && !Config.idleRamps

/-- R141: a voice's output sample: the shifted sample times the gain, saturated; zero at gain 0. -/
def State.voiceSample (s : State) (i : Fin 4) : Int :=
  let g := s.voiceGain (s.voices.get i).ren
  if s.silenced ∨ g = 0 ∨ (s.voices.get i).ren.mute then 0
  else saturate (openQuotient (s.shiftedSample i * g) 2048 (Config.roundsUp s.draws i.val))

/-- R142: the mix: the voices' samples weighted by level / 128, summed and then saturated. -/
def State.mixSample (s : State) : Int :=
  let part (i : Fin 4) : Int := s.voiceSample i * (s.voices.get i).res.plan.level
  saturate (openQuotient (part 0 + part 1 + part 2 + part 3) 128 (Config.roundsUp s.draws 4))

/-- A sample's slot word. -/
def sampleSlot (x : Int) : SlotWord := slotOf (BitVec.ofInt 24 x)

/-- R2, R3, Table 1.8: the output frame: the oldest dry sample, the four voices, the mix, and two zero slots. The bits
after the next frame sync are not sent, and no more than 256 are (R1). -/
def State.outFrame (s : State) (bits : Nat) : OutFrame :=
  { slots := [slotOf (s.asp.dry.headD 0#24), sampleSlot (s.voiceSample 0), sampleSlot (s.voiceSample 1), sampleSlot (s.voiceSample 2),
      sampleSlot (s.voiceSample 3), sampleSlot s.mixSample, 0#32, 0#32]
    sent := min bits 256 }

/-- R1: the frame's input sample: bits 31 to 8 of slot 0, or zero when the frame is cut short before bit 32. -/
def inputSample (word : SlotWord) (bits : Nat) : Sample := if 32 ≤ bits then word.extractLsb' 8 24 else 0#24

/-- A list's oldest entry leaves and a newest joins (R3, R16). -/
def shiftIn (l : List Sample) (x : Sample) : List Sample := l.tail ++ [x]

/-- R135: a voice's grain timer at a frame: it rises by 16, and at the grain length or more brings a grain boundary. -/
def RenderRecord.grainFrame (r : RenderRecord) (length : Nat) : RenderRecord :=
  let t := r.timer + 16
  if length ≤ t then { r with timer := if length ≤ t - length then 0 else t - length, boundaryDue := true } else { r with timer := t }

/-- R139: the fade-step count at a frame: it stands still in LOCKED, and at 256 a fade step is due. -/
def State.countFade (s : State) : State :=
  if s.rate.state = .locked then s
  else if s.renderer.fadeCount + 1 < 256 then { s with renderer := { s.renderer with fadeCount := s.renderer.fadeCount + 1 } }
  else { s with renderer := { s.renderer with fadeCount := 0 }, due := { s.due with fadeStep := true } }

/-- R136: every grain boundary of the last frame that has not been taken. -/
def State.takeBoundaries (s : State) : State := s.mapRen RenderRecord.takeBoundary

/-- R1, R4, R5, R7: a frame is counted, the absence timer restarted, and the rate monitor told; a new frame of the
ramp begins (R139). -/
def State.beginFrame (s : State) : State :=
  { s with
    asp := { s.asp with frames := s.asp.frames + 1, absenceRunning := true }
    rate := s.rate.atFrame
    renderer := { s.renderer with ramp := min 256 (s.renderer.ramp + 1) } }

/-- R1 to R3, R16, R141: the output frame is formed and the input sample handed on; the shifters take the dry delay line's
oldest sample. -/
def State.moveSamples (s : State) (word : SlotWord) (bits : Nat) : State :=
  let x := inputSample word bits
  { s with
    asp := { s.asp with dry := shiftIn s.asp.dry x, adout := some (s.outFrame bits), vocal := s.shifterFrame :: s.asp.vocal }
    tracker := { s.tracker with history := shiftIn s.tracker.history x }
    draws := s.draws + 1 }

/-- R1, R135, R139: a frame, with the last hop carried out. -/
def State.nextFrame (s : State) (word : SlotWord) (bits : Nat) : State :=
  let t := s.takeBoundaries.beginFrame.moveSamples word bits
  (t.mapRen fun r => r.grainFrame t.renderer.grainLength).countFade

/-- R3, R4, R16, R141: a frame absence, while the absence timer runs: the delay line and the history are cleared, the
clearing reaches the shifters, and the rate monitor is told. No frame is in progress, and ADOUT carries zero (R2). -/
def State.absence (s : State) : State :=
  if s.asp.absenceRunning then
    { s with
      asp := { s.asp with absenceRunning := false, dry := dryZero, adout := none, vocal := [] }
      tracker := { s.tracker with history := historyZero } }.rateAbsence
  else s

/-! ### Hops (R12, R16 to R20, R99, R101, R131, R135, R139, R154, R173, R176) -/

/-- R17: the 256 samples of the block whose measurement has completed: the frame sync that completed it has begun one
frame more. -/
def blockOf (history : List Sample) : List Sample := (history.drop (history.length - 257)).take 256

/-- R17: the level code of the hop's block. -/
def State.hopLevel (s : State) : Nat := levelCode (peakOf (blockOf s.tracker.history))

/-- R135: the grain mode and length after a report. -/
def Renderer.afterReport (c : Renderer) (r : Report) (note : Option Nat) : Renderer :=
  match r.voiced, note, r.period with
  | true, some _, some p => { c with grainMode := .period, grainLength := p }
  | _, _, _ => { c with grainMode := .fixed, grainLength := 2048 }

/-- R99: the accumulators after a report. -/
def KeyTracker.afterReport (k : KeyTracker) (r : Report) (d : DeciderState) : KeyTracker :=
  match r.voiced, d.heldNote with
  | true, some n => { k with acc := integrate k.acc (n % 12) r.confidence }
  | _, _ => k

/-- Whether any voice is SOUNDING (R138, R173). -/
def State.anySounding (s : State) : Bool := s.voices.toList.any fun v => v.ren.state == .sounding

/-- R24: the learn takes the report; at 64 it completes. -/
def State.learnReport (s : State) (r : Report) : State :=
  let l := s.tracker.learn.map fun x => x.observe r.level
  { s with tracker := { s.tracker with learn := l }, due := { s.due with learn := l.any fun x => decide (64 ≤ x.count) } }

/-- R20, R30 to R35: the decider takes the report; an entry to SILENT clears cause HOWL (R173). -/
def State.decideReport (s : State) (r : Report) : State :=
  let d := deciderReport s.tracker.settings s.decider r
  let t := { s with decider := d.1, due := { s.due with note := d.2 } }
  if d.1.state = .silent ∧ s.decider.state ≠ .silent then t.howlSilent else t

/-- R99, R135: the key tracker and the renderer's grains take the report with the decider as it left it. -/
def State.followReport (s : State) (r : Report) : State :=
  { s with
    key := s.key.afterReport r s.decider.state
    renderer := s.renderer.afterReport r s.decider.state.note }

/-- R173: the howl check takes the report; at W or more cause HOWL is due. -/
def State.howlReport (s : State) (r : Report) : State :=
  let h := s.fault.howlReport s.decider.state.heldNote.isSome r.confidence r.level s.anySounding s.decider.dev
  { s with fault := h.1, due := { s.due with howl := h.2 } }

/-- The report of a hop (R16 to R19). -/
def State.hopReport (s : State) (a : Analysis) : Report := makeReport s.tracker.settings s.rate.nrate s.hopLevel a

/-- R20: a report is made and handed on. -/
def State.report (s : State) (a : Analysis) : State :=
  let r := s.hopReport a
  (((s.learnReport r).decideReport r).followReport r).howlReport r

/-- R139, R131, R133: the fade step, the report, and the hop work, in one of the orders the manual leaves open; a fade
step is taken before the report's changes reach the sound condition. R131 and R132 order the glide steps voice by voice; here
the four voices take theirs at one place of the hop. DESIGN CHOICE, unsafe; log entry 8. -/
def State.hopRendering (s : State) (a : Analysis) : RenderOrder → State
  | .first => (s.fadeStep.hopWork.report a).retest
  | .afterReport => ((s.report a).fadeStep.hopWork).retest
  | .last =>
    let t := ((s.report a).fadeStep).retest
    { t with due := { t.due with render := true } }

/-- R101, R154, R86: the counts of a hop, and the completions they bring. -/
def State.hopCounts (s : State) : State :=
  let k := s.key.atHop
  let c := s.cue.atHop
  let l := s.line.atHop
  { s with
    key := k.1, cue := c.1, line := l
    due := { s.due with decay := k.2, dwell := c.2, silence := decide (l.derived ≠ l.cond) } }

/-- R176: the recovery counter at a hop. -/
def State.recoveryHop (s : State) : State :=
  let f := s.fault.atHop
  { s with fault := f.1, due := { s.due with recovery := f.2 } }

/-- R12: a hop. -/
def State.hop (s : State) (a : Analysis) (o : RenderOrder) : State := (s.recoveryHop.hopRendering a o).hopCounts

/-- The frames counted since the measurement's first frame sync, when a run of 256 is complete (R5). -/
def Rate.runComplete (r : Rate) : Option Nat :=
  match r.run with
  | some n => if 256 ≤ n then some (n - 256) else none
  | none => none

/-- R5: a measurement completes, when 256 frames have been counted since its first frame sync; the next begins. -/
def State.measurement (s : State) (ticks : Nat) (a : Analysis) (o : RenderOrder) : State :=
  match s.rate.runComplete with
  | none => s
  | some n =>
    let m := { s with rate := { s.rate with run := some n } }.measure ticks
    if m.2 then m.1.hop a o else m.1

/-! ### Meanings -/

/-- POWER_ON (R15): every item of state takes its power-on value. The queue of waiting commands and the count of free
values are the model's own and stand. -/
def execPowerOn (sa : BitVec 2) (s : State) : Host.Outcome State Fault Refusal :=
  .next { State.powerOn sa with draws := s.draws, pending := s.pending }

/-- FRAME_SYNC (R1). -/
def execFrameSync (word : SlotWord) (bits : Nat) (s : State) : Host.Outcome State Fault Refusal := .next (s.complete.nextFrame word bits)

/-- FRAME_ABSENCE (R4). -/
def execFrameAbsence (s : State) : Host.Outcome State Fault Refusal := .next s.complete.absence

/-- MEASUREMENT (R5). -/
def execMeasurement (ticks : Nat) (a : Analysis) (o : RenderOrder) (s : State) : Host.Outcome State Fault Refusal :=
  .next (s.complete.measurement ticks a o)

end Sys2Proof.Machine
end

