-- ==== Sys2Proof/Machine/Decoder.lean ====
section
/-! DEFINITION. A decoded record's passage through its owning block: permission, action, reply (R167 to R169), and the
answer of TWOWIRE. -/

namespace Sys2Proof.Machine

/-- R167 to R169: a record of command `c` from `src` acts on a state: refused with NOTPERMITTED when the command is not
taken from the source; otherwise the owning block acts and its reply goes to the source's slot. -/
def State.decoded (s : State) (src : Manual) (c : Cmd) (body : State → Answer) : State :=
  if src ∈ c.sources then (body s).1.reply src ⟨c.code, (body s).2.1, (body s).2.2⟩ else s.reply src ⟨c.code, .notPermitted, []⟩

/-- R167 to R169: a record, with the last hop carried out whole first (log entry 1). -/
def State.command (s : State) (src : Manual) (c : Cmd) (body : State → Answer) : State := s.complete.decoded src c body

/-- R107, R167 to R169: a record that may write KEY or SCALE. -/
def State.commandMeeting (s : State) (src : Manual) (c : Cmd) (body : State → Answer) : State := s.meeting fun t => t.decoded src c body

/-- R107, R167 to R169: a KEYTRACK record, which finds a decay event still due. -/
def State.commandTracking (s : State) (src : Manual) (c : Cmd) (body : State → Answer) : State := s.completeButDecay.decoded src c body

/-- R165: TWOWIRE. -/
def State.answerTwowire (s : State) (timeout : Byte) : Answer :=
  if 1 ≤ timeout.toNat ∧ timeout.toNat ≤ 64 then ({ s with ports := { s.ports with timeout := timeout.toNat } }, .done, [timeout])
  else answer s .range

end Sys2Proof.Machine
end

