-- ==== Sys2Proof/Machine/ContextCommands.lean ====
section
/-! DEFINITION. The meanings of the context commands (chapter 4): each record's effect and reply, and the command of the table. -/

namespace Sys2Proof.Machine

/-- SETKEY (R54 to R56, R58). -/
def State.cmdSetkey (s : State) (src : Manual) (tonic pin : Byte) : State := s.commandMeeting src .setkey fun t => t.answerSetkey src tonic pin

/-- SETKEY (R54 to R56, R58). -/
def execSetkey (src : Manual) (tonic pin : Byte) (s : State) : Host.Outcome State Fault Refusal := .next (s.cmdSetkey src tonic pin)

/-- SETSCALE (R54 to R56, R58). -/
def State.cmdSetscale (s : State) (src : Manual) (slot pin : Byte) : State := s.commandMeeting src .setscale fun t => t.answerSetscale src slot pin

/-- SETSCALE (R54 to R56, R58). -/
def execSetscale (src : Manual) (slot pin : Byte) (s : State) : Host.Outcome State Fault Refusal := .next (s.cmdSetscale src slot pin)

/-- SETCHORD (R54 to R56, R59). -/
def State.cmdSetchord (s : State) (src : Manual) (pin : Byte) (chord : ChordBytes) : State := s.command src .setchord fun t => t.answerSetchord src pin chord

/-- SETCHORD (R54 to R56, R59). -/
def execSetchord (src : Manual) (pin : Byte) (chord : ChordBytes) (s : State) : Host.Outcome State Fault Refusal := .next (s.cmdSetchord src pin chord)

/-- UNPIN (R60, R61); a shadow of KEY or SCALE that it applies is a field write, which R107 orders beside a decay event. -/
def State.cmdUnpin (s : State) (src : Manual) (field : Byte) : State := s.commandMeeting src .unpin fun t => t.answerUnpin src field

/-- UNPIN (R60, R61, R107). -/
def execUnpin (src : Manual) (field : Byte) (s : State) : Host.Outcome State Fault Refusal := .next (s.cmdUnpin src field)

/-- SWITCHES with form PUT (R63, R66). -/
def State.cmdSwitchesPut (s : State) (src : Manual) (arg : Byte) : State := s.command src .switches fun t => t.answerPut src arg

/-- SWITCHES with form PUT (R63, R66). -/
def execSwitchesPut (src : Manual) (arg : Byte) (s : State) : Host.Outcome State Fault Refusal := .next (s.cmdSwitchesPut src arg)

/-- SWITCHES with form SET (R63, R66). -/
def State.cmdSwitchesSet (s : State) (src : Manual) (arg : Byte) : State := s.command src .switches fun t => t.answerSet src arg

/-- SWITCHES with form SET (R63, R66). -/
def execSwitchesSet (src : Manual) (arg : Byte) (s : State) : Host.Outcome State Fault Refusal := .next (s.cmdSwitchesSet src arg)

/-- SWITCHES with form CLEAR (R63, R66). -/
def State.cmdSwitchesClear (s : State) (src : Manual) (arg : Byte) : State := s.command src .switches fun t => t.answerClear src arg

/-- SWITCHES with form CLEAR (R63, R66). -/
def execSwitchesClear (src : Manual) (arg : Byte) (s : State) : Host.Outcome State Fault Refusal := .next (s.cmdSwitchesClear src arg)

/-- LOCKSW (R65). -/
def State.cmdLocksw (s : State) (src : Manual) (mask : Byte) : State := s.command src .locksw fun t => t.answerLocksw mask

/-- LOCKSW (R65). -/
def execLocksw (src : Manual) (mask : Byte) (s : State) : Host.Outcome State Fault Refusal := .next (s.cmdLocksw src mask)

/-- HUSH (R67, R140). -/
def State.cmdHush (s : State) (src : Manual) : State := s.command src .hush fun t => t.answerHush src

/-- HUSH (R67, R140). -/
def execHush (src : Manual) (s : State) : Host.Outcome State Fault Refusal := .next (s.cmdHush src)

/-- RESUME (R68, R140). -/
def State.cmdResume (s : State) (src : Manual) : State := s.command src .resume fun t => t.answerResume src

/-- RESUME (R68, R140). -/
def execResume (src : Manual) (s : State) : Host.Outcome State Fault Refusal := .next (s.cmdResume src)

end Sys2Proof.Machine
end

