-- ==== Sys2Proof/Machine/CueCommands.lean ====
section
/-! DEFINITION. The meanings of the cue commands (chapter 9): each record's effect and reply, and the command of the table. -/

namespace Sys2Proof.Machine

/-- CUENEXT (R150). -/
def State.cmdCuenext (s : State) (src : Manual) : State := s.commandMeeting src .cuenext fun t => t.answerCuenext

/-- CUENEXT (R150). -/
def execCuenext (src : Manual) (s : State) : Host.Outcome State Fault Refusal := .next (s.cmdCuenext src)

/-- CUEPREV (R151). -/
def State.cmdCueprev (s : State) (src : Manual) : State := s.commandMeeting src .cueprev fun t => t.answerCueprev

/-- CUEPREV (R151). -/
def execCueprev (src : Manual) (s : State) : Host.Outcome State Fault Refusal := .next (s.cmdCueprev src)

/-- CUEGOTO (R151). -/
def State.cmdCuegoto (s : State) (src : Manual) (step : Byte) : State := s.commandMeeting src .cuegoto fun t => t.answerCuegoto step

/-- CUEGOTO (R151). -/
def execCuegoto (src : Manual) (step : Byte) (s : State) : Host.Outcome State Fault Refusal := .next (s.cmdCuegoto src step)

/-- CUESTOP (R152). -/
def State.cmdCuestop (s : State) (src : Manual) : State := s.command src .cuestop fun t => t.answerCuestop

/-- CUESTOP (R152). -/
def execCuestop (src : Manual) (s : State) : Host.Outcome State Fault Refusal := .next (s.cmdCuestop src)

/-- CUELOAD (R146). -/
def State.cmdCueload (s : State) (src : Manual) (step : Byte) (record : CueBytes) : State := s.command src .cueload fun t => t.answerCueload step record

/-- CUELOAD (R146). -/
def execCueload (src : Manual) (step : Byte) (record : CueBytes) (s : State) : Host.Outcome State Fault Refusal := .next (s.cmdCueload src step record)

/-- CUELEN (R147). -/
def State.cmdCuelen (s : State) (src : Manual) (length wrap : Byte) : State := s.command src .cuelen fun t => t.answerCuelen length wrap

/-- CUELEN (R147). -/
def execCuelen (src : Manual) (length wrap : Byte) (s : State) : Host.Outcome State Fault Refusal := .next (s.cmdCuelen src length wrap)

end Sys2Proof.Machine
end

