-- ==== Sys2Proof/Machine/Restart.lean ====
section
/-! DEFINITION. RESTART (R170, R171). -/

namespace Sys2Proof.Machine

/-- R81: the chord line at RESTART; the six settings are kept. -/
def Line.restarted (l : Line) : Line :=
  { settings := l.settings, wait := .high, fifo := [], gapPending := false, assembler := .hunt, silence := 0, frameSeen := false, broken := false,
    cond := if l.settings.enable then .listening else .off }

/-- R98: the key tracker at RESTART; the three settings are kept. -/
def KeyTracker.restarted (k : KeyTracker) : KeyTracker := { k with acc := List.replicate 12 0, counter := 0, evaluation := none }

/-- R178: the fault monitor at RESTART, with cause RATE read afresh from the rate monitor. -/
def FaultMonitor.restarted (f : FaultMonitor) (causeRate : Bool) : FaultMonitor :=
  { output := if causeRate then .degraded .rate else .run
    causeHowl := false
    howlCounter := 0
    dev0 := none
    recovery := 0
    howlEnable := f.howlEnable
    window := f.window
    flags := if causeRate then Flag.fault.mask else 0#16 }

/-- R170: every block takes its RESTART value; tables, settings, the rate monitor, the audio port, the analysis
history, the reply slots and the port transfers stand. -/
def State.resetRuntime (s : State) : State :=
  { s with
    tracker := { s.tracker with learn := none }
    decider := ⟨.silent, 0⟩
    ctx := .atReset
    line := s.line.restarted
    matcher := none
    queue := []
    key := s.key.restarted
    copy := .atReset
    voices := voicesAtReset s.tables.plans
    renderer := .atReset
    cue := .atReset
    fault := s.fault.restarted s.rate.causeRate
    due := .nothing }

/-- R81: after the RESTART's publication a disabled receiver hands OFF to the context unit. -/
def State.handOff (s : State) : State := { s with ctx := { s.ctx with lineCond := s.line.cond } }.publishChanges s.ctx false

/-- R170, R171, R70: RESTART: the reset, one CONTEXT publication, and DONE. -/
def State.answerRestart (s : State) : Answer :=
  answer (s.resetRuntime.publish .context (s.ctx.changes .atReset false)).handOff .done

end Sys2Proof.Machine
end

