-- ==== Sys2Proof/Machine/FaultCommands.lean ====
section
/-! DEFINITION. The meanings of CLEARFAULT, ACKFLAGS and RESTART (chapters 10 and 11): each record's effect and reply, and the command of the table. -/

namespace Sys2Proof.Machine

/-- CLEARFAULT (R177). -/
def State.cmdClearfault (s : State) (src : Manual) : State := s.command src .clearfault fun t => t.answerClearfault

/-- CLEARFAULT (R177). -/
def execClearfault (src : Manual) (s : State) : Host.Outcome State Fault Refusal := .next (s.cmdClearfault src)

/-- ACKFLAGS (R179). -/
def State.cmdAckflags (s : State) (src : Manual) (mask : BitVec 16) : State := s.command src .ackflags fun t => t.answerAckflags mask

/-- ACKFLAGS (R179). -/
def execAckflags (src : Manual) (mask : BitVec 16) (s : State) : Host.Outcome State Fault Refusal := .next (s.cmdAckflags src mask)

/-- RESTART (R170, R171). -/
def State.cmdRestart (s : State) (src : Manual) : State := s.command src .restart fun t => t.answerRestart

/-- RESTART (R170, R171). -/
def execRestart (src : Manual) (s : State) : Host.Outcome State Fault Refusal := .next (s.cmdRestart src)

end Sys2Proof.Machine
end

