-- ==== Sys2Proof/Machine/Reads.lean ====
section
/-! DEFINITION. The status record (R180) and the reading of a voice (R128, R144). -/

namespace Sys2Proof.Machine

/-- A field's summary in the status record: value, owner, pin holder, and a mark of shadow presence (R180). -/
def fieldSummary {α : Type} (f : Field α) (bytes : α → List Byte) : List Byte := fieldData f bytes ++ [markByte f.shadow.isSome]

/-- R180: READSTATUS. -/
def State.answerReadstatus (s : State) : Answer :=
  (s, .done,
    [outputByte s.fault.output] ++ optBytes 1 (fun k => [causeByte k]) s.fault.output.cause? ++ [markByte s.rate.causeRate, markByte s.fault.causeHowl] ++
      hushBytes s.ctx.hush ++ [rateStateByte s.rate.state] ++ natBytes 3 s.rate.nrate ++
      [deciderByte s.decider.state] ++ optBytes 1 (fun n => [byteOf n]) s.decider.state.note ++ intBytes 1 s.decider.dev ++
      fieldSummary s.ctx.key (fun x => [finByte x]) ++ fieldSummary s.ctx.scale (fun x => [finByte x]) ++ fieldSummary s.ctx.chord chordBytes ++
      [markByte s.ctx.usable, s.ctx.switches, s.ctx.lockMask, conditionByte s.line.cond, byteOf s.queue.length] ++
      cursorBytes s.cue ++ [byteOf s.tables.cueLength] ++ bytes16 s.fault.flags)

/-- R128: the resolver's record of a voice. -/
def voiceBytes (r : VoiceRecord) : List Byte :=
  finByte r.binding :: planBytes r.plan ++ optBytes 10 (fun p => planBytes p.plan ++ [finByte p.origin]) r.staged ++
    optBytes 1 (fun t => [byteOf t]) r.target ++ optBytes 2 (intBytes 2) r.goal ++ optBytes 2 (fun b => [pathByte b.path, foldByte b.fold]) r.basis

/-- R144: the renderer's fields of a voice. -/
def renderBytes (r : RenderRecord) (c : Renderer) : List Byte :=
  [renderStateByte r.state, byteOf r.fade, markByte r.hasTarget] ++ optBytes 2 (intBytes 2) r.interval ++
    optBytes 6 (fun g => intBytes 2 g.start ++ intBytes 2 g.goal ++ [byteOf g.remaining, byteOf g.length]) r.glide ++
    optBytes 2 (intBytes 2) r.requested ++ optBytes 2 (intBytes 2) r.pending ++ intBytes 2 r.applied ++ natBytes 3 r.ratio ++
    [grainModeByte c.grainMode] ++ natBytes 2 c.grainLength

/-- R128, R144: READVOICE. -/
def State.answerReadvoice (s : State) (voice : Byte) : Answer :=
  match readFin 4 voice with
  | none => answer s .range
  | some i => (s, .done, voiceBytes (s.voices.get i).res ++ renderBytes (s.voices.get i).ren s.renderer)

end Sys2Proof.Machine
end

