-- ==== Sys2Proof/Machine/TableStore.lean ====
section
/-! DEFINITION. The table store (chapter 3): loads of scales, shapes and plans, BIND, and READTABLE. -/

namespace Sys2Proof.Machine

/-- R42: a load into scale slot `k` is a context change when the SCALE field names it. -/
def Context.scaleLoaded (c : Context) (k : Fin 8) : Bool := c.scale.value == k

/-- R45: a load into shape slot `k` is a context change when the chord in the CHORD field names it. -/
def Context.shapeLoaded (c : Context) (k : Fin 16) : Bool := c.chord.value.any fun x => x.shape == k

/-- R41, R42: LOADSCALE. -/
def State.answerLoadscale (s : State) (slot : Byte) (members : BitVec 16) (rule : Byte) : Answer :=
  match readFin 8 slot, readRule rule with
  | some k, some r =>
    match readMembers members with
    | none => answer s .format
    | some m =>
      if m.getLsbD 0 then
        answer ({ s with tables := { s.tables with scales := s.tables.scales.set k.val ⟨m, r⟩ } }.publishChanges s.ctx (s.ctx.scaleLoaded k)) .done
      else answer s .format
  | _, _ => answer s .range

/-- R44, R45: LOADSHAPE. -/
def State.answerLoadshape (s : State) (slot : Byte) (members : BitVec 16) : Answer :=
  match readFin 16 slot with
  | none => answer s .range
  | some k =>
    match readMembers members with
    | none => answer s .format
    | some m =>
      if m.getLsbD 0 && m != 1#12 then
        answer ({ s with tables := { s.tables with shapes := s.tables.shapes.set k.val m } }.publishChanges s.ctx (s.ctx.shapeLoaded k)) .done
      else answer s .format

/-- R47, check 3: the amount as it is stored, or `none` outside the range of its mode. -/
def readAmount (mode : PlanMode) (b : Byte) : Option Int :=
  let x := b.toInt
  match mode with
  | .off => some 0
  | .scalar => if -7 ≤ x ∧ x ≤ 7 ∧ x ≠ 0 then some x else none
  | .chordal => if -4 ≤ x ∧ x ≤ 4 then some x else none
  | .fixed => if -24 ≤ x ∧ x ≤ 24 then some x else none
  | .drone => if b.toNat ≤ 95 then some b.toNat else none

/-- R47, check 6: the fallback as it is stored, or `none` when it is out of range. -/
def readFallback (mode : PlanMode) (present : Bool) (b : Byte) : Option (Option Int) :=
  match mode with
  | .chordal =>
    if present then (if -7 ≤ b.toInt ∧ b.toInt ≤ 7 ∧ b.toInt ≠ 0 then some (some b.toInt) else none) else some none
  | .off => some none
  | .scalar => some none
  | .fixed => some none
  | .drone => some none

/-- R47: the plan record as it is stored, or `none` when a check fails. -/
def readPlan (b : PlanBytes) : Option Plan :=
  match readMode b.mode with
  | none => none
  | some mode =>
    match readAmount mode b.amount, readFallback mode (readMark .loadplan b.fallbackMark) b.fallback with
    | some amount, some fallback =>
      if b.low.toNat ≤ b.high.toNat ∧ b.high.toNat ≤ 95 ∧ b.glide.toNat ≤ 63 ∧ b.level.toNat ≤ 127 then
        some { mode := mode, amount := amount, low := b.low.toNat, high := b.high.toNat, follow := readFollow b.follow,
               glide := b.glide.toNat, level := b.level.toNat, fallback := fallback }
      else none
    | _, _ => none

/-- The adoption field as a handing (R112); `true` is IMMEDIATE. -/
def Handing.ofAdoption (immediate : Bool) : Handing := if immediate then .immediate else .next

/-- R48: whether a load into slot `k` is staged on a voice: its binding is `k`, or its staged plan came from `k`. -/
def VoiceRecord.concerns (r : VoiceRecord) (k : Fin 16) : Bool := r.binding == k || r.staged.any fun p => p.origin == k

/-- R48: a stored plan is staged on every voice it concerns. -/
def State.stageLoad (s : State) (k : Fin 16) (p : Plan) (h : Handing) : State :=
  { s with voices := s.voices.mapIdx fun i v => if v.res.concerns k then v.stage s.surroundings i ⟨p, k⟩ h else v }

/-- R47, R48: LOADPLAN. -/
def State.answerLoadplan (s : State) (slot : Byte) (b : PlanBytes) (adoption : Byte) : Answer :=
  match readFin 16 slot, readPlan b, readAdoption adoption with
  | some k, some p, some now =>
    answer ({ s with tables := { s.tables with plans := s.tables.plans.set k.val p } }.stageLoad k p (.ofAdoption now)).retest .done
  | _, _, _ => answer s .range

/-- R111: the data of BIND's reply: the voice's binding, and the origin of its staged plan or a mark that the copy was
adopted at once. -/
def bindData (r : VoiceRecord) : List Byte := finByte r.binding :: optBytes 1 (fun p => [finByte p.origin]) r.staged

/-- R111: BIND. -/
def State.answerBind (s : State) (voice slot adoption : Byte) : Answer :=
  match readFin 4 voice, readFin 16 slot, readAdoption adoption with
  | some v, some k, some now =>
    let t := (s.stageOn v ⟨s.tables.plans.getD k.val planOff, k⟩ (.ofAdoption now)).retest
    (t, .done, bindData (t.voices.get v).res)
  | _, _, _ => answer s .range

/-- R51: READTABLE; the selector is 0 SCALE, 1 SHAPE, 2 PLAN. -/
def State.answerReadtable (s : State) (table slot : Byte) : Answer :=
  if table = 0#8 then
    match readFin 8 slot with
    | none => answer s .range
    | some k =>
      let x := s.tables.scales.getD k.val ⟨0#12, .parallel⟩
      (s, .done, memberBytes x.members ++ [ruleByte x.rule])
  else if table = 1#8 then
    match readFin 16 slot with
    | none => answer s .range
    | some k => (s, .done, memberBytes (s.tables.shapes.getD k.val 0#12))
  else if table = 2#8 then
    match readFin 16 slot with
    | none => answer s .range
    | some k => (s, .done, planBytes (s.tables.plans.getD k.val planOff))
  else answer s .range

end Sys2Proof.Machine
end

