-- ==== Sys2Proof/Machine/ReadCommands.lean ====
section
/-! DEFINITION. The meanings of the read commands: each record's effect and reply, and the command of the table. -/

namespace Sys2Proof.Machine

/-- READSTATUS (R180). -/
def State.cmdReadstatus (s : State) (src : Manual) : State := s.command src .readstatus fun t => t.answerReadstatus

/-- READSTATUS (R180). -/
def execReadstatus (src : Manual) (s : State) : Host.Outcome State Fault Refusal := .next (s.cmdReadstatus src)

/-- READCONTEXT (R74). -/
def State.cmdReadcontext (s : State) (src : Manual) : State := s.command src .readcontext fun t => t.answerReadcontext

/-- READCONTEXT (R74). -/
def execReadcontext (src : Manual) (s : State) : Host.Outcome State Fault Refusal := .next (s.cmdReadcontext src)

/-- READVOICE (R128, R144). -/
def State.cmdReadvoice (s : State) (src : Manual) (voice : Byte) : State := s.command src .readvoice fun t => t.answerReadvoice voice

/-- READVOICE (R128, R144). -/
def execReadvoice (src : Manual) (voice : Byte) (s : State) : Host.Outcome State Fault Refusal := .next (s.cmdReadvoice src voice)

/-- READCUE (R157). -/
def State.cmdReadcue (s : State) (src : Manual) (mark step : Byte) : State := s.command src .readcue fun t => t.answerReadcue mark step

/-- READCUE (R157). -/
def execReadcue (src : Manual) (mark step : Byte) (s : State) : Host.Outcome State Fault Refusal := .next (s.cmdReadcue src mark step)

/-- READTABLE (R51). -/
def State.cmdReadtable (s : State) (src : Manual) (table slot : Byte) : State := s.command src .readtable fun t => t.answerReadtable table slot

/-- READTABLE (R51). -/
def execReadtable (src : Manual) (table slot : Byte) (s : State) : Host.Outcome State Fault Refusal := .next (s.cmdReadtable src table slot)

/-- READKEYTRK (R108). -/
def State.cmdReadkeytrk (s : State) (src : Manual) : State := s.command src .readkeytrk fun t => t.answerReadkeytrk

/-- READKEYTRK (R108). -/
def execReadkeytrk (src : Manual) (s : State) : Host.Outcome State Fault Refusal := .next (s.cmdReadkeytrk src)

end Sys2Proof.Machine
end

