-- ==== Sys2Proof/Machine/SettingCommands.lean ====
section
/-! DEFINITION. The meanings of the setting commands (chapters 1, 2, 5, 6, 10 and 11): each record's effect and reply, and the command of the table. -/

namespace Sys2Proof.Machine

/-- TRACKER (R21). -/
def State.cmdTracker (s : State) (src : Manual) (settings : TrackerBytes) : State := s.command src .tracker fun t => t.answerTracker settings

/-- TRACKER (R21). -/
def execTracker (src : Manual) (settings : TrackerBytes) (s : State) : Host.Outcome State Fault Refusal := .next (s.cmdTracker src settings)

/-- LEARN (R23). -/
def State.cmdLearn (s : State) (src : Manual) (method : Byte) : State := s.command src .learn fun t => t.answerLearn method

/-- LEARN (R23). -/
def execLearn (src : Manual) (method : Byte) (s : State) : Host.Outcome State Fault Refusal := .next (s.cmdLearn src method)

/-- RATE with action NONE (R13). -/
def State.cmdRate (s : State) (src : Manual) (settings : RateBytes) : State := s.command src .rate fun t => t.answerRate settings

/-- RATE with action NONE (R13). -/
def execRate (src : Manual) (settings : RateBytes) (s : State) : Host.Outcome State Fault Refusal := .next (s.cmdRate src settings)

/-- RATE with action REMEASURE (R13, R14). -/
def State.cmdRemeasure (s : State) (src : Manual) (settings : RateBytes) : State := s.command src .rate fun t => t.answerRemeasure settings

/-- RATE with action REMEASURE (R13, R14). -/
def execRemeasure (src : Manual) (settings : RateBytes) (s : State) : Host.Outcome State Fault Refusal := .next (s.cmdRemeasure src settings)

/-- CHORDLINE (R79, R80). -/
def State.cmdChordline (s : State) (src : Manual) (settings : LineBytes) (enable : Byte) : State := s.command src .chordline fun t => t.answerLine settings (readOnOff enable)

/-- CHORDLINE (R79, R80). -/
def execChordline (src : Manual) (settings : LineBytes) (enable : Byte) (s : State) : Host.Outcome State Fault Refusal := .next (s.cmdChordline src settings enable)

/-- CHORDLINE with the enable off (R79, R80). -/
def State.cmdLineDisable (s : State) (src : Manual) (settings : LineBytes) : State := s.command src .chordline fun t => t.answerLine settings (some false)

/-- CHORDLINE with the enable off (R79, R80). -/
def execLineDisable (src : Manual) (settings : LineBytes) (s : State) : Host.Outcome State Fault Refusal := .next (s.cmdLineDisable src settings)

/-- CHORDLINE with the enable on (R79, R80). -/
def State.cmdLineEnable (s : State) (src : Manual) (settings : LineBytes) : State := s.command src .chordline fun t => t.answerLine settings (some true)

/-- CHORDLINE with the enable on (R79, R80). -/
def execLineEnable (src : Manual) (settings : LineBytes) (s : State) : Host.Outcome State Fault Refusal := .next (s.cmdLineEnable src settings)

/-- KEYTRACK with action KEEP (R106). -/
def State.cmdKeytrack (s : State) (src : Manual) (settings : KeytrackBytes) : State := s.commandTracking src .keytrack fun t => t.answerKeytrack settings false

/-- KEYTRACK with action KEEP (R106). -/
def execKeytrack (src : Manual) (settings : KeytrackBytes) (s : State) : Host.Outcome State Fault Refusal := .next (s.cmdKeytrack src settings)

/-- KEYTRACK with action CLEAR (R106). -/
def State.cmdKeytrackClear (s : State) (src : Manual) (settings : KeytrackBytes) : State := s.commandTracking src .keytrack fun t => t.answerKeytrack settings true

/-- KEYTRACK with action CLEAR (R106). -/
def execKeytrackClear (src : Manual) (settings : KeytrackBytes) (s : State) : Host.Outcome State Fault Refusal := .next (s.cmdKeytrackClear src settings)

/-- HOWL (R174). -/
def State.cmdHowl (s : State) (src : Manual) (enable : Byte) (window : BitVec 16) : State := s.command src .howl fun t => t.answerHowl enable window

/-- HOWL (R174). -/
def execHowl (src : Manual) (enable : Byte) (window : BitVec 16) (s : State) : Host.Outcome State Fault Refusal := .next (s.cmdHowl src enable window)

/-- TWOWIRE (R165). -/
def State.cmdTwowire (s : State) (src : Manual) (timeout : Byte) : State := s.command src .twowire fun t => t.answerTwowire timeout

/-- TWOWIRE (R165). -/
def execTwowire (src : Manual) (timeout : Byte) (s : State) : Host.Outcome State Fault Refusal := .next (s.cmdTwowire src timeout)

end Sys2Proof.Machine
end

