-- ==== Sys2Proof/Machine/TableCommands.lean ====
section
/-! DEFINITION. The meanings of the table and binding commands (chapters 3 and 7): each record's effect and reply, and the command of the table. -/

namespace Sys2Proof.Machine

/-- LOADSCALE (R41, R42). -/
def State.cmdLoadscale (s : State) (src : Manual) (slot : Byte) (members : BitVec 16) (rule : Byte) : State := s.commandMeeting src .loadscale fun t => t.answerLoadscale slot members rule

/-- LOADSCALE (R41, R42). -/
def execLoadscale (src : Manual) (slot : Byte) (members : BitVec 16) (rule : Byte) (s : State) : Host.Outcome State Fault Refusal := .next (s.cmdLoadscale src slot members rule)

/-- LOADSHAPE (R44, R45). -/
def State.cmdLoadshape (s : State) (src : Manual) (slot : Byte) (members : BitVec 16) : State := s.command src .loadshape fun t => t.answerLoadshape slot members

/-- LOADSHAPE (R44, R45). -/
def execLoadshape (src : Manual) (slot : Byte) (members : BitVec 16) (s : State) : Host.Outcome State Fault Refusal := .next (s.cmdLoadshape src slot members)

/-- LOADPLAN (R47, R48). -/
def State.cmdLoadplan (s : State) (src : Manual) (slot : Byte) (plan : PlanBytes) (adoption : Byte) : State := s.command src .loadplan fun t => t.answerLoadplan slot plan adoption

/-- LOADPLAN (R47, R48). -/
def execLoadplan (src : Manual) (slot : Byte) (plan : PlanBytes) (adoption : Byte) (s : State) : Host.Outcome State Fault Refusal := .next (s.cmdLoadplan src slot plan adoption)

/-- BIND (R111 to R113). -/
def State.cmdBind (s : State) (src : Manual) (voice slot adoption : Byte) : State := s.command src .bind fun t => t.answerBind voice slot adoption

/-- BIND (R111 to R113). -/
def execBind (src : Manual) (voice slot adoption : Byte) (s : State) : Host.Outcome State Fault Refusal := .next (s.cmdBind src voice slot adoption)

end Sys2Proof.Machine
end

