-- ==== Sys2Proof/Machine/Ports.lean ====
section
/-! DEFINITION. The setup port and the stage port (chapter 10): transactions, transfers, record decoding. -/

namespace Sys2Proof.Machine

/-- R167: a decoded record is routed to the block that owns its command. LINE_DISABLE and LINE_ENABLE are not decoded
from records: theirs are CHORDLINE's. -/
def State.route (s : State) : Instr → State
  | .setkey src tonic pin => s.cmdSetkey src tonic pin
  | .setscale src slot pin => s.cmdSetscale src slot pin
  | .setchord src pin chord => s.cmdSetchord src pin chord
  | .unpin src field => s.cmdUnpin src field
  | .switchesPut src arg => s.cmdSwitchesPut src arg
  | .switchesSet src arg => s.cmdSwitchesSet src arg
  | .switchesClear src arg => s.cmdSwitchesClear src arg
  | .locksw src mask => s.cmdLocksw src mask
  | .hush src => s.cmdHush src
  | .resume src => s.cmdResume src
  | .cuenext src => s.cmdCuenext src
  | .cueprev src => s.cmdCueprev src
  | .cuegoto src step => s.cmdCuegoto src step
  | .cuestop src => s.cmdCuestop src
  | .cueload src step record => s.cmdCueload src step record
  | .cuelen src length wrap => s.cmdCuelen src length wrap
  | .loadscale src slot members rule => s.cmdLoadscale src slot members rule
  | .loadshape src slot members => s.cmdLoadshape src slot members
  | .loadplan src slot plan adoption => s.cmdLoadplan src slot plan adoption
  | .bind src voice slot adoption => s.cmdBind src voice slot adoption
  | .tracker src settings => s.cmdTracker src settings
  | .learn src method => s.cmdLearn src method
  | .rate src settings => s.cmdRate src settings
  | .remeasure src settings => s.cmdRemeasure src settings
  | .chordline src settings enable => s.cmdChordline src settings enable
  | .lineDisable src settings => s.cmdLineDisable src settings
  | .lineEnable src settings => s.cmdLineEnable src settings
  | .keytrack src settings => s.cmdKeytrack src settings
  | .keytrackClear src settings => s.cmdKeytrackClear src settings
  | .howl src enable window => s.cmdHowl src enable window
  | .twowire src timeout => s.cmdTwowire src timeout
  | .clearfault src => s.cmdClearfault src
  | .ackflags src mask => s.cmdAckflags src mask
  | .restart src => s.cmdRestart src
  | .readstatus src => s.cmdReadstatus src
  | .readcontext src => s.cmdReadcontext src
  | .readvoice src voice => s.cmdReadvoice src voice
  | .readcue src mark step => s.cmdReadcue src mark step
  | .readtable src table slot => s.cmdReadtable src table slot
  | .readkeytrk src => s.cmdReadkeytrk src
  | _ => s

/-- R167 to R169: a record handed to the command decoder with its source. -/
def State.record (s : State) (src : Manual) (code : Byte) (args : List Byte) : State :=
  match decodeRecord src code args with
  | .command i => s.route i
  | .refused r => s.complete.reply src ⟨code, r, []⟩

/-- R160, R162: the complete bytes of a transaction or transfer are judged: a whole record is decoded, another number
of bytes than n + 2, or more than `limit`, is answered FORMAT, and no byte has no effect. -/
def State.judge (s : State) (src : Manual) (limit : Nat) : List Byte → State
  | [] => s.complete
  | [code] => s.complete.reply src ⟨code, .format, []⟩
  | code :: n :: args =>
    if args.length = n.toNat ∧ args.length + 2 ≤ limit then s.record src code args else s.complete.reply src ⟨code, .format, []⟩

/-- A change of the ports alone. -/
def State.setPorts (s : State) (f : Ports → Ports) : State := { s with ports := f s.ports }

/-! ### Setup port (R158 to R160) -/

/-- R158: the reply that a refused transaction leaves in its select's slot. -/
def busyReply : Reply := ⟨0#8, .busy, []⟩

/-- R158: the release of a refused select. -/
def State.releaseRefused (s : State) (sel : Select) : State :=
  if s.ports.refused = some sel then { s with ports := { s.ports with refused := none } }.reply (selectSource sel) busyReply else s

/-- The port after the holder's release, with what SPDO carried in the transaction (R158). -/
def State.freePort (s : State) (spdo : List Byte) : State := { s with ports := { s.ports with holder := none, spdo := spdo } }

/-- R159: what SPDO carries in a FETCH: zero while the first byte is clocked in, then the reply record, then zeros. -/
def fetchBytes (r : Reply) (clocked : Nat) : List Byte := 0#8 :: (r.bytes ++ List.replicate clocked 0#8).take clocked

/-- R158, R159: a FETCH. -/
def State.setupFetch (s : State) (sel : Select) (clocked : Nat) : State :=
  if s.ports.holder = some sel then s.freePort (fetchBytes (s.slot (selectSource sel)) clocked) else s.releaseRefused sel

/-- R158, R160: a command transaction's release: the holder's bytes are judged; the release of a refused select brings
BUSY. A transaction whose first byte is H'00 is a FETCH. -/
def State.setupCommand (s : State) (sel : Select) (bytes : List Byte) : State :=
  if bytes.head? = some 0#8 then s.complete.setupFetch sel (bytes.length - 1)
  else if s.ports.holder = some sel then (s.freePort (List.replicate bytes.length 0#8)).judge (selectSource sel) 32 bytes
  else s.complete.releaseRefused sel

/-- R158: the assertion of a select: it becomes the holder of a free port, and is refused while the other holds it. -/
def Ports.assertSelect (p : Ports) (sel : Select) : Ports :=
  match p.holder with
  | none => { p with holder := some sel, spdo := [] }
  | some h => if h = sel then p else { p with refused := some sel }

/-! ### Stage port (R161 to R164) -/

/-- R161: a START and its address byte: acknowledged when the address is the part's own, and then a write or a read by
the direction bit, with the time-out counter started. Another address leaves the port waiting for a START. -/
def Ports.startTransfer (p : Ports) (address : Byte) : Ports :=
  if address.extractLsb' 1 7 = p.address then
    { p with
      acknowledged := true
      acks := []
      twd := []
      transfer := if address.getLsbD 0 then .read p.stage else .write
      timer := some p.timeout }
  else { p with acknowledged := false, acks := [], twd := [], transfer := .idle, timer := none }

/-- R164, R165: a falling edge of TWC: a running time-out counter restarts at 0, and is judged from here on against the
time-out in force. -/
def Ports.twcFalls (p : Ports) : Ports := { p with timer := p.timer.map fun _ => p.timeout }

/-- The end of a transfer: a STOP stops the time-out counter; at a repeated START it runs on, restarted by the transfer's
edges, into the new transfer's address byte (R164). -/
def Ports.endTransfer (p : Ports) (e : TransferEnd) : Ports :=
  match e with
  | .stop => { p with transfer := .idle, timer := none }
  | .repeatedStart => { p with transfer := .idle }.twcFalls

/-- R162: the acknowledges of a write transfer's bytes: the first 16 are acknowledged, and no later one. -/
def acknowledges (offered : Nat) : List Bool := (List.range offered).map fun i => decide (i < 16)

/-- R162: the end of a write transfer; 16 bytes are taken at most. -/
def State.stageRecord (s : State) (w : WriteTransfer) : State :=
  if s.ports.transfer = .write then
    { s with ports := { s.ports.endTransfer w.ending with acks := acknowledges w.bytes.length } }.judge .stage 16 w.bytes
  else s.complete

/-- R163: what a read transfer gives: the reply record, then zeros. -/
def stageBytes (r : Reply) (count : Nat) : List Byte := (r.bytes ++ List.replicate count 0#8).take count

/-- R163: the end of a read transfer. -/
def State.stageReply (s : State) (t : ReadTransfer) : State :=
  match s.ports.transfer with
  | .read r => { s with ports := { s.ports.endTransfer t.ending with twd := stageBytes r t.count } }
  | .write => s
  | .idle => s

/-- R164: the time-out counter, while it runs, expires: the transfer is abandoned, with its bytes. -/
def State.stageTimeOut (s : State) : State :=
  match s.ports.timer with
  | some _ => { s with ports := { s.ports with transfer := .idle, timer := none, twd := [] } }.raise .twTimeout
  | none => s

/-! ### Meanings -/

/-- COMMAND_TRANSACTION (R158, R160). -/
def execCommandTransaction (sel : Select) (bytes : List Byte) (s : State) : Host.Outcome State Fault Refusal := .next (s.setupCommand sel bytes)

/-- FETCH (R159). -/
def execFetch (sel : Select) (clocked : Nat) (s : State) : Host.Outcome State Fault Refusal := .next (s.complete.setupFetch sel clocked)

/-- REFUSED_TRANSACTION (R158). -/
def execRefusedTransaction (sel : Select) (s : State) : Host.Outcome State Fault Refusal := .next (s.complete.releaseRefused sel)

/-- SELECT_ASSERTION (R158). -/
def execSelectAssertion (sel : Select) (s : State) : Host.Outcome State Fault Refusal :=
  .next (s.complete.setPorts fun p => p.assertSelect sel)

/-- START_CONDITION (R161). -/
def execStartCondition (address : Byte) (s : State) : Host.Outcome State Fault Refusal :=
  .next (s.complete.setPorts fun p => p.startTransfer address)

/-- STAGE_WRITE (R162, R164). -/
def execStageWrite (offered : WriteTransfer) (s : State) : Host.Outcome State Fault Refusal := .next (s.stageRecord offered)

/-- STAGE_READ (R163, R164). -/
def execStageRead (count : ReadTransfer) (s : State) : Host.Outcome State Fault Refusal := .next (s.complete.stageReply count)

/-- TIME_OUT (R164). -/
def execTimeOut (s : State) : Host.Outcome State Fault Refusal := .next (s.complete.stageTimeOut)

end Sys2Proof.Machine
end

