-- ==== Sys2Proof/Machine/Dispatch.lean ====
section
/-! DEFINITION. The dispatch of commands to their meanings. -/

namespace Sys2Proof.Machine

def exec (i : Instr) (s : State) : Host.Outcome State Fault Refusal :=
  match i with
  | .powerOn sa => Sys2Proof.Machine.execPowerOn sa s
  | .frameSync word bits => Sys2Proof.Machine.execFrameSync word bits s
  | .frameAbsence => Sys2Proof.Machine.execFrameAbsence s
  | .measurement ticks analysis order => Sys2Proof.Machine.execMeasurement ticks analysis order s
  | .fadeStepCount => Sys2Proof.Machine.execFadeStepCount s
  | .grainBoundary voice => Sys2Proof.Machine.execGrainBoundary voice s
  | .settleComplete => Sys2Proof.Machine.execSettleComplete s
  | .releaseComplete => Sys2Proof.Machine.execReleaseComplete s
  | .learnComplete => Sys2Proof.Machine.execLearnComplete s
  | .decayEvent => Sys2Proof.Machine.execDecayEvent s
  | .dwellExpiry => Sys2Proof.Machine.execDwellExpiry s
  | .howlDeclared => Sys2Proof.Machine.execHowlDeclared s
  | .recoveryComplete => Sys2Proof.Machine.execRecoveryComplete s
  | .character s1 s2 s3 => Sys2Proof.Machine.execCharacter s1 s2 s3 s
  | .matchEnd => Sys2Proof.Machine.execMatchEnd s
  | .lineBreak => Sys2Proof.Machine.execLineBreak s
  | .silenceThreshold => Sys2Proof.Machine.execSilenceThreshold s
  | .timeOut => Sys2Proof.Machine.execTimeOut s
  | .fetch sel clocked => Sys2Proof.Machine.execFetch sel clocked s
  | .commandTransaction sel bytes => Sys2Proof.Machine.execCommandTransaction sel bytes s
  | .refusedTransaction sel => Sys2Proof.Machine.execRefusedTransaction sel s
  | .stageWrite offered => Sys2Proof.Machine.execStageWrite offered s
  | .stageRead count => Sys2Proof.Machine.execStageRead count s
  | .setkey src tonic pin => Sys2Proof.Machine.execSetkey src tonic pin s
  | .setscale src slot pin => Sys2Proof.Machine.execSetscale src slot pin s
  | .setchord src pin chord => Sys2Proof.Machine.execSetchord src pin chord s
  | .unpin src field => Sys2Proof.Machine.execUnpin src field s
  | .switchesPut src arg => Sys2Proof.Machine.execSwitchesPut src arg s
  | .switchesSet src arg => Sys2Proof.Machine.execSwitchesSet src arg s
  | .switchesClear src arg => Sys2Proof.Machine.execSwitchesClear src arg s
  | .locksw src mask => Sys2Proof.Machine.execLocksw src mask s
  | .hush src => Sys2Proof.Machine.execHush src s
  | .resume src => Sys2Proof.Machine.execResume src s
  | .cuenext src => Sys2Proof.Machine.execCuenext src s
  | .cueprev src => Sys2Proof.Machine.execCueprev src s
  | .cuegoto src step => Sys2Proof.Machine.execCuegoto src step s
  | .cuestop src => Sys2Proof.Machine.execCuestop src s
  | .cueload src step record => Sys2Proof.Machine.execCueload src step record s
  | .cuelen src length wrap => Sys2Proof.Machine.execCuelen src length wrap s
  | .loadscale src slot members rule => Sys2Proof.Machine.execLoadscale src slot members rule s
  | .loadshape src slot members => Sys2Proof.Machine.execLoadshape src slot members s
  | .loadplan src slot plan adoption => Sys2Proof.Machine.execLoadplan src slot plan adoption s
  | .bind src voice slot adoption => Sys2Proof.Machine.execBind src voice slot adoption s
  | .tracker src settings => Sys2Proof.Machine.execTracker src settings s
  | .learn src method => Sys2Proof.Machine.execLearn src method s
  | .rate src settings => Sys2Proof.Machine.execRate src settings s
  | .remeasure src settings => Sys2Proof.Machine.execRemeasure src settings s
  | .chordline src settings enable => Sys2Proof.Machine.execChordline src settings enable s
  | .lineDisable src settings => Sys2Proof.Machine.execLineDisable src settings s
  | .lineEnable src settings => Sys2Proof.Machine.execLineEnable src settings s
  | .keytrack src settings => Sys2Proof.Machine.execKeytrack src settings s
  | .keytrackClear src settings => Sys2Proof.Machine.execKeytrackClear src settings s
  | .howl src enable window => Sys2Proof.Machine.execHowl src enable window s
  | .twowire src timeout => Sys2Proof.Machine.execTwowire src timeout s
  | .clearfault src => Sys2Proof.Machine.execClearfault src s
  | .ackflags src mask => Sys2Proof.Machine.execAckflags src mask s
  | .restart src => Sys2Proof.Machine.execRestart src s
  | .readstatus src => Sys2Proof.Machine.execReadstatus src s
  | .readcontext src => Sys2Proof.Machine.execReadcontext src s
  | .readvoice src voice => Sys2Proof.Machine.execReadvoice src voice s
  | .readcue src mark step => Sys2Proof.Machine.execReadcue src mark step s
  | .readtable src table slot => Sys2Proof.Machine.execReadtable src table slot s
  | .readkeytrk src => Sys2Proof.Machine.execReadkeytrk src s
  | .falseStart s1 s2 s3 => Sys2Proof.Machine.execFalseStart s1 s2 s3 s
  | .selectAssertion sel => Sys2Proof.Machine.execSelectAssertion sel s
  | .startCondition address => Sys2Proof.Machine.execStartCondition address s

end Sys2Proof.Machine
end

