-- ==== Sys2Proof/Safety.lean ====
section
/-! DEFINITION. What the manual promises of every state that a run reaches: the invariants that claims are stated with. -/

namespace Sys2Proof

/-- A property of all four voices. -/
def Quad.All {α : Type} (p : α → Prop) (q : Quad α) : Prop := p q.v0 ∧ p q.v1 ∧ p q.v2 ∧ p q.v3

/-! ### The lock mask -/

/-- The commands that may change a locked switch: a SWITCHES of DESK, RESTART, power-on, and a setup port transaction
that may carry one (R65). A stage transfer can carry neither. -/
def Instr.mayChangeLocked : Instr → Bool
  | .powerOn _ => true
  | .restart _ => true
  | .switchesPut src _ => src == .desk
  | .switchesSet src _ => src == .desk
  | .switchesClear src _ => src == .desk
  | .commandTransaction .psel bytes => bytes.head? == some 0x52#8
  | .commandTransaction .dsel bytes => bytes.head? == some 0x14#8
  | _ => false

/-- The completions: the rows of the table that stand for what the last hop or frame brought about. -/
def Instr.isCompletion : Instr → Bool
  | .fadeStepCount => true
  | .grainBoundary _ => true
  | .settleComplete => true
  | .releaseComplete => true
  | .learnComplete => true
  | .decayEvent => true
  | .dwellExpiry => true
  | .howlDeclared => true
  | .recoveryComplete => true
  | .silenceThreshold => true
  | _ => false

/-- The commands that do not first take a decay event whole: those that may write KEY or SCALE, and KEYTRACK; a port
transaction may carry one (R107, log entry 26). -/
def Instr.meetsDecay : Instr → Bool
  | .setkey _ _ _ => true
  | .setscale _ _ _ => true
  | .unpin _ _ => true
  | .loadscale _ _ _ _ => true
  | .cuenext _ => true
  | .cueprev _ => true
  | .cuegoto _ _ => true
  | .keytrack _ _ => true
  | .keytrackClear _ _ => true
  | .character _ _ _ => true
  | .matchEnd => true
  | .commandTransaction _ _ => true
  | .stageWrite _ => true
  | _ => false

namespace Machine

/-- The last hop and the last frame have been carried out: no completion is due. -/
def State.Quiet (s : State) : Prop := s.due = Due.nothing

/-- A note start or a DWELL expiry is due, each of which may enter a cue step and so write KEY or SCALE (R107, R149). -/
def Due.StepMayFollow (d : Due) : Prop :=
  (∃ n, d.note = some (.noteOn n)) ∨ (∃ old n, d.note = some (.noteChange old n)) ∨ d.dwell = true

/-! ### Buffers and lists -/

/-- R77, R94: the receive FIFO holds at most 2 characters, and the chord queue at most 4 entries. -/
def State.BuffersBounded (s : State) : Prop := s.line.fifo.length ≤ 2 ∧ s.queue.length ≤ 4

/-- R3, R16: the dry delay line holds exactly 128 samples, and the analysis history 4,096. -/
def State.DelayLinesFull (s : State) : Prop := s.asp.dry.length = 128 ∧ s.tracker.history.length = 4096

/-- R145, R148: the list length is at most 64, and a cursor that is present is less than it. -/
def State.CursorInside (s : State) : Prop := s.tables.cueLength ≤ 64 ∧ ∀ k ∈ s.cue.cursor, k.val < s.tables.cueLength

/-- R98, R100: twelve accumulators, each within 0 to 65535. -/
def State.AccumulatorsBounded (s : State) : Prop := s.key.acc.length = 12 ∧ ∀ a ∈ s.key.acc, a ≤ 65535

/-! ### Plans, notes and voices -/

/-- Table 3.4: the range of an amount. -/
def amountInRange (mode : PlanMode) (a : Int) : Prop :=
  match mode with
  | .off => a = 0
  | .scalar => -7 ≤ a ∧ a ≤ 7 ∧ a ≠ 0
  | .chordal => -4 ≤ a ∧ a ≤ 4
  | .fixed => -24 ≤ a ∧ a ≤ 24
  | .drone => 0 ≤ a ∧ a ≤ 95

/-- R46, R47, Table 3.4: the ranges of a plan record; the fallback is kept only for CHORDAL. -/
def Plan.InRange (p : Plan) : Prop :=
  amountInRange p.mode p.amount ∧ p.low ≤ p.high ∧ p.high ≤ 95 ∧ p.glide ≤ 63 ∧ p.level ≤ 127 ∧
    ∀ k ∈ p.fallback, p.mode = .chordal ∧ -7 ≤ k ∧ k ≤ 7 ∧ k ≠ 0

/-- R46: every plan of the library, and every active and staged plan, lies in the ranges of Table 3.4. -/
def State.PlansInRange (s : State) : Prop :=
  (∀ p ∈ s.tables.plans, p.InRange) ∧ s.voices.All fun v => v.res.plan.InRange ∧ ∀ x ∈ v.res.staged, x.plan.InRange

/-- Section 1.4, R29: every note the decider holds or considers is a note index. -/
def DeciderState.NotesInRange : DeciderState → Prop
  | .silent => True
  | .onset m _ => m ≤ 95
  | .held n => n ≤ 95
  | .transition n m _ => n ≤ 95 ∧ m ≤ 95
  | .releasing n _ => n ≤ 95

/-- The new note of a note event is a note index. -/
def NoteEvent.NoteInRange : NoteEvent → Prop
  | .noteOn n => n ≤ 95
  | .noteChange _ n => n ≤ 95
  | .noteOff _ => True

/-- The decider's notes, and the note of an event that waits, are note indexes. -/
def State.NotesInRange (s : State) : Prop := s.decider.state.NotesInRange ∧ ∀ e ∈ s.due.note, e.NoteInRange

/-- R109, R125, R126: a target lies within the active plan's range, an interval goal within ±3040; a goal is present
exactly when a target is, and the renderer's has-target mark says so (R127, R130). -/
def Voice.TargetInRange (v : Voice) : Prop :=
  (∀ t ∈ v.res.target, v.res.plan.low ≤ t ∧ t ≤ v.res.plan.high) ∧ (∀ g ∈ v.res.goal, -3040 ≤ g ∧ g ≤ 3040) ∧
    v.res.goal.isSome = v.res.target.isSome ∧ v.ren.hasTarget = v.res.target.isSome

/-- R125: whenever a voice has a target note, that note lies within its active plan's range. -/
def State.TargetsInRange (s : State) : Prop := s.PlansInRange ∧ s.NotesInRange ∧ s.voices.All Voice.TargetInRange

/-! ### Renderer -/

/-- A shift of two octaves at most (section 1.4). -/
def shiftInRange (d : Int) : Prop := -768 ≤ d ∧ d ≤ 768

/-- R133, R134: requested, pending and applied shifts lie within ±768, and the applied ratio code is that of the applied
shift. -/
def RenderRecord.ShiftsInRange (r : RenderRecord) : Prop :=
  (∀ d ∈ r.requested, shiftInRange d) ∧ (∀ d ∈ r.pending, shiftInRange d) ∧ shiftInRange r.applied ∧ r.ratio = ratioCode r.applied

/-- R134 for all four voices. -/
def State.ShiftsInRange (s : State) : Prop := s.voices.All fun v => v.ren.ShiftsInRange

/-- Table 8.5: the fade position of each renderer state. -/
def RenderRecord.FadePlaced (r : RenderRecord) : Prop :=
  match r.state with
  | .idle => r.fade = 0
  | .rising => r.fade ≤ 7
  | .sounding => r.fade = 8
  | .falling => 1 ≤ r.fade ∧ r.fade ≤ 8

/-- Table 8.5 for all four voices. -/
def State.FadesPlaced (s : State) : Prop := s.voices.All fun v => v.ren.FadePlaced

/-- R131, Table 8.1: while a glide is in progress, 1 to `length` steps remain, and the current interval lies between the
glide's start and goal inclusive. -/
def RenderRecord.GlideBetween (r : RenderRecord) : Prop :=
  ∀ g ∈ r.glide, 1 ≤ g.remaining ∧ g.remaining ≤ g.length ∧
    ∃ i, r.interval = some i ∧ ((g.start ≤ i ∧ i ≤ g.goal) ∨ (g.goal ≤ i ∧ i ≤ g.start))

/-- R131 for all four voices. -/
def State.GlidesBetween (s : State) : Prop := s.voices.All fun v => v.ren.GlideBetween

/-- R140: while the output state is BYPASS or the part is hushed, every voice is IDLE with fade position 0, and no ramp
is left to run. -/
def State.SilencedIdle (s : State) : Prop :=
  s.silenced = true → s.voices.All fun v => v.ren.state = .idle ∧ v.ren.fade = 0 ∧ v.ren.fadeOld = 0

/-! ### Context -/

/-- R52: while a field is pinned its owner is its pin holder, and a shadow is present only while it is pinned. -/
def Field.PinOwned {α : Type} (f : Field α) : Prop := (∀ m ∈ f.pin, f.owner = .source (.manual m)) ∧ (f.pin = none → f.shadow = none)

/-- R52 for the three fields. -/
def State.PinsOwned (s : State) : Prop := s.ctx.key.PinOwned ∧ s.ctx.scale.PinOwned ∧ s.ctx.chord.PinOwned

/-- A chord value that names no empty shape slot. -/
def Tables.ChordFilled (t : Tables) (v : Option Chord) : Prop := ∀ c ∈ v, t.shapeFilled c.shape = true

/-- R38, R43, R52, R94, R145: the SCALE field, its shadow and every cue step name non-empty scale slots; the CHORD field,
its shadow, every queue entry and every cue step name non-empty shape slots; and a match in progress scores only shapes
of slots that are still non-empty. Scale slot 0, which RESTART puts in the SCALE field, is non-empty (Table 3.1, R38). -/
def State.SlotsFilled (s : State) : Prop :=
  s.tables.scaleFilled 0 = true ∧ s.tables.scaleFilled s.ctx.scale.value = true ∧ (∀ x ∈ s.ctx.scale.shadow, s.tables.scaleFilled x.value = true) ∧
    s.tables.ChordFilled s.ctx.chord.value ∧ (∀ x ∈ s.ctx.chord.shadow, s.tables.ChordFilled x.value) ∧
    (∀ e ∈ s.queue, s.tables.ChordFilled e.value) ∧
    (∀ c ∈ s.tables.cues, (∀ k ∈ c.scale, s.tables.scaleFilled k = true) ∧ ∀ v ∈ c.chord, s.tables.ChordFilled v) ∧
    ∀ m ∈ s.matcher, ∀ k : Fin 16, m.shapes.getD k.val 0#12 ≠ 0#12 → s.tables.shapeFilled k = true

/-! ### Publications and sound conditions -/

/-- R70, R109, R129: the resolver's context copy is the context in force, and the renderer's copy of each voice's enable
is that of the copy's switch word. -/
def State.CopyCurrent (s : State) : Prop :=
  s.copy = s.ctx.published ∧ ∀ i : Fin 4, (s.voices.get i).ren.enable = switchSet s.copy.switches (.enable i)

/-- R137: a voice is RISING or SOUNDING exactly while its sound condition holds. -/
def State.SoundFollows (s : State) : Prop :=
  s.voices.All fun v => (v.ren.state = .rising ∨ v.ren.state = .sounding) ↔ s.soundCondition v.ren = true

/-- R137: what testing the sound condition afresh makes of the voice `v`: `w`. The decider's term is a note reported; while
a note-on waits for its note-start operation it counts as not reached (log entry 2). -/
def State.Tests (s : State) (v w : Voice) : Prop :=
  let sound := v.ren.enable = true ∧ v.ren.hasTarget = true ∧ s.noteTerm = true ∧ s.fault.output = .run ∧ s.ctx.hush = none
  w = { v with ren := v.ren.retest (decide sound) }

/-- R117, R129, R137: what a publication makes of voice `i`, which stands as `v`: `w`. The resolver handles the publication
with the tables, the context it carries, the note reported and dev; the renderer's copy of the voice's enable becomes that
of the context's switch word; and the sound condition is tested afresh. -/
def State.VoiceTakes (s : State) (p : Publication) (i : Fin 4) (v w : Voice) : Prop :=
  let a := v.atPublication p ⟨s.tables, p.context, s.decider.state.note, s.decider.dev⟩ i
  s.Tests { a with ren := { a.ren with enable := switchSet p.context.switches (.enable i) } } w

/-! ### What the resolver hands to the renderer -/

/-- R127, R130: the renderer's record of `v` after the resolver has formed the interval goal `g` under the active plan
`plan`: the goal is taken when it differs from the goal before or when there was none; an unchanged goal is not handed on. -/
def Voice.handed (v : Voice) (plan : Plan) (dev g : Int) : RenderRecord := if v.res.goal = some g then v.ren else v.ren.takeGoal plan dev g

/-- R127, R130: the renderer's record of `v` after a mark of no target: the has-target mark is cleared and no glide runs;
the interval and the shifts stand. -/
def Voice.handedNone (v : Voice) : RenderRecord := { v.ren with hasTarget := false, glide := none }

/-- R116, R125 to R127, R130: what a resolution under `plan` against note `n` makes of the target, goal and basis of `v`, and
of its renderer record: those of `w`. -/
def Voice.Resolves (v : Voice) (e : Surroundings) (plan : Plan) (n : Nat) (w : Voice) : Prop :=
  match workingNote e.tables e.copy plan n with
  | (some x, path) =>
    let f := rangeFold plan.low plan.high x
    let g : Int := 32 * ((f.1.toNat : Int) - n)
    w.res.target = some f.1.toNat ∧ w.res.goal = some g ∧ w.res.basis = some ⟨path, f.2⟩ ∧ w.ren = v.handed plan e.dev g
  | (none, path) => w.res.target = none ∧ w.res.goal = none ∧ w.res.basis = some ⟨path, .none⟩ ∧ w.ren = v.handedNone

/-- R113, R127: what the adoption of `p` makes of voice `i`, which stands as `v`: `w`. The copy is the active plan and its
origin the binding; an enabled voice is then resolved against the note reported, and another loses target, goal and basis. -/
def Voice.Adopts (v : Voice) (e : Surroundings) (i : Fin 4) (p : Staged) (w : Voice) : Prop :=
  w.res.plan = p.plan ∧ w.res.binding = p.origin ∧ w.res.staged = none ∧
    (∀ n, switchSet e.copy.switches (.enable i) = true → e.note = some n → v.Resolves e p.plan n w) ∧
    (switchSet e.copy.switches (.enable i) = false ∨ e.note = none →
      w.res.target = none ∧ w.res.goal = none ∧ w.res.basis = none ∧ w.ren = v.handedNone)

/-! ### Cue steps -/

/-- R149 parts 1 and 2, R64: what the fields and masks of a step make of a context: each field of the step written as CUE,
and the free switches of its masks set and then cleared. -/
def Context.Stepped (before after : Context) (c : CueStep) : Prop :=
  after.key = (match c.key with
      | some v => (before.key.write v (.auto .cue) false).1
      | none => before.key) ∧
    after.scale = (match c.scale with
      | some v => (before.scale.write v (.auto .cue) false).1
      | none => before.scale) ∧
    after.chord = (match c.chord with
      | some v => (before.chord.write v (.auto .cue) false).1
      | none => before.chord) ∧
    (∀ i, i < 8 → after.switches.getLsbD i =
      (if before.lockMask.getLsbD i = true then before.switches.getLsbD i
        else (before.switches.getLsbD i || c.setMask.getLsbD i) && !c.clearMask.getLsbD i)) ∧
    after.lockMask = before.lockMask ∧ after.hush = before.hush ∧ after.lineCond = before.lineCond

/-- R149: what entering step `j` outside a note-start operation makes of a state: the cue unit's items and CUEADV, the
context of parts 1 and 2 with a flush when CHORD is cleared, and the context copy and the voices as its publication leaves
them; then each binding adopted at once on a voice that the publication has left IDLE, and staged on another, while the
other voices stand; and then every sound condition is tested afresh. The tables, the decider, the rate, the line and the
other settings stand. -/
def State.EntersStep (s t : State) (j : Fin 64) : Prop :=
  let c := s.tables.cues.getD j.val cueStepEmpty
  let published := ((s.writeStepFields c).writeStepSwitches c).publishChanges s.ctx false
  t.cue = ⟨some j, 0, true, c.advance⟩ ∧ t.fault = (s.raise .cueAdv).fault ∧ s.ctx.Stepped t.ctx c ∧
    t.queue = (if switchSet s.ctx.switches .chord = true ∧ switchSet t.ctx.switches .chord = false then [] else s.queue) ∧
    t.copy = published.copy ∧
    (∀ i, ∃ w, s.Tests w (t.voices.get i) ∧
      let v := published.voices.get i
      (i ∉ c.bindings.map Prod.fst → w = v) ∧
        ((c.bindings.map Prod.fst).Nodup → ∀ k, (i, k) ∈ c.bindings →
          let staging : Staged := ⟨s.tables.plans.getD k.val planOff, k⟩
          (v.ren.state = .idle → v.Adopts published.surroundings i staging w) ∧
            (v.ren.state ≠ .idle → w = { v with res := { v.res with staged := some staging } }))) ∧
    t.tables = s.tables ∧ t.decider = s.decider ∧ t.rate = s.rate ∧ t.asp = s.asp ∧ t.tracker = s.tracker ∧ t.line = s.line ∧ t.key = s.key ∧
    t.renderer = s.renderer ∧ t.draws = s.draws ∧ t.pending = s.pending

/-! ### Chord line characters -/

/-- R82: what the assembler, in HUNT, makes of a character: a marker of 0 is ignored; a header with an error, a kind outside
1 to 5 or a count above 8 is dropped; a count of 0 completes the frame, and another begins it. -/
def State.Hunts (c : LineChar) (s t : State) : Prop :=
  let hunting := { s with line := { s.line with assembler := .hunt } }
  let bad := c.framing = true ∨ c.parity = true
  let kind := c.value.toNat / 16
  let count := c.value.toNat % 16
  (c.marker = false → t = hunting) ∧ (c.marker = true → bad → t = hunting.raise .frameDrop) ∧
    (c.marker = true → ¬bad → kind = 0 ∨ 5 < kind ∨ 8 < count → t = hunting.raise .frameDrop) ∧
    (c.marker = true → ¬bad → ∀ k, (kind, k) ∈ [(1, FrameKind.chord), (2, .notes), (3, .key), (4, .clear), (5, .alive)] →
      (1 ≤ count → count ≤ 8 → t = { s with line := { s.line with assembler := .frame k count [] } }) ∧
      (count = 0 → t = s.completeFrame k []))

/-- R82, R83: what the assembler, in HUNT or FRAME, makes of a character that it takes. -/
def State.TakesCharacter (c : LineChar) (s t : State) : Prop :=
  let bad := c.framing = true ∨ c.parity = true
  (s.line.assembler = .hunt → s.Hunts c t) ∧
    ∀ k n data, s.line.assembler = .frame k n data →
      (c.gap = true → s.Hunts c t) ∧
      (c.gap = false → bad → t = State.raise { s with line := { s.line with assembler := .hunt } } .frameDrop) ∧
      (c.gap = false → ¬bad → c.marker = true → (s.raise .frameDrop).Hunts c t) ∧
      (c.gap = false → ¬bad → c.marker = false → data.length + 1 < n →
        t = { s with line := { s.line with assembler := .frame k n (data ++ [c.value]) } }) ∧
      (c.gap = false → ¬bad → c.marker = false → n ≤ data.length + 1 → t = s.completeFrame k (data ++ [c.value]))

/-- R77: the assembler takes the characters that wait, oldest first, until it is in MATCHING or none is left. -/
def State.TakesWaiting : List LineChar → State → State → Prop
  | [], s, t => t = s
  | c :: rest, s, t =>
    (s.line.assembler = .matching → t = s) ∧
      (s.line.assembler ≠ .matching →
        ∃ u, State.TakesCharacter c { s with line := { s.line with fifo := rest } } u ∧ State.TakesWaiting rest u t)

/-! ### Rate monitor and fault monitor -/

/-- A number of REFCLK ticks per 256 frames that the manual admits (section 1.10.3). -/
def ticksInRange (n : Nat) : Prop := 32768 ≤ n ∧ n ≤ 131071

/-- R5, R6, R8, R9, R11, R13, R14: the records of the rate monitor lie in their ranges, and cause RATE agrees with the
rate state. -/
def Rate.InRange (r : Rate) : Prop :=
  ticksInRange r.nrate ∧ ticksInRange r.windowMin ∧ ticksInRange r.windowMax ∧ (∀ m ∈ r.acquisition, ticksInRange m) ∧
    r.acquisition.length ≤ 4 ∧ (∀ l ∈ r.remeasure, l.length ≤ 4 ∧ ∀ m ∈ l, ticksInRange m) ∧ r.outCount ≤ 3 ∧
    ((r.state = .unlocked ∨ r.state = .locked) → r.causeRate = false) ∧ (r.state = .lost → r.causeRate = true)

/-- R175, R176, Table 11.1: the output state agrees with the causes: none in RUN and RECOVERING, the cause it names alone
in DEGRADED. -/
def State.OutputAgrees (s : State) : Prop :=
  s.rate.InRange ∧
    match s.fault.output with
    | .run => s.rate.causeRate = false ∧ s.fault.causeHowl = false
    | .degraded .rate => s.rate.causeRate = true ∧ s.fault.causeHowl = false
    | .degraded .howl => s.rate.causeRate = false ∧ s.fault.causeHowl = true
    | .recovering => s.rate.causeRate = false ∧ s.fault.causeHowl = false
    | .bypass => True

/-! ### Settings and note decider -/

/-- Table 2.1: the ranges of the tracker settings. -/
def TrackerSettings.InRange (t : TrackerSettings) : Prop :=
  -16 ≤ t.trim ∧ t.trim ≤ 16 ∧ 256 ≤ t.low ∧ t.low ≤ 1535 ∧ 1024 ≤ t.high ∧ t.high ≤ 2559 ∧ t.low + 384 ≤ t.high ∧ t.gate ≤ 63 ∧
    1 ≤ t.confidence ∧ t.confidence ≤ 15 ∧ t.hysteresis ≤ 15 ∧ 1 ≤ t.settle ∧ t.settle ≤ 8 ∧ 1 ≤ t.release ∧ t.release ≤ 64

/-- Table 2.1, Table 5.2, R98, R165, R174: every setting lies in its range. -/
def State.SettingsInRange (s : State) : Prop :=
  s.tracker.settings.InRange ∧ s.line.settings.stale ≤ 255 ∧ s.line.settings.lost ≤ 255 ∧
    (16 ≤ s.key.decay ∧ s.key.decay ≤ 4096 ∧ s.key.decay % 16 = 0 ∧ s.key.margin ≤ 63 ∧ s.key.minTotal ≤ 65535) ∧
    (64 ≤ s.fault.window ∧ s.fault.window ≤ 2048 ∧ s.fault.window % 64 = 0) ∧ 1 ≤ s.ports.timeout ∧ s.ports.timeout ≤ 64

/-- Table 2.5: the counts of the decider's states. -/
def DeciderState.CountsInRange : DeciderState → Prop
  | .silent => True
  | .onset _ k => 1 ≤ k ∧ k ≤ 7
  | .held _ => True
  | .transition _ _ k => 1 ≤ k ∧ k ≤ 7
  | .releasing _ k => 1 ≤ k ∧ k ≤ 63

/-- R28, Table 2.5: the counts lie in the ranges of Table 2.5 and dev within −31 to +30, with dev 0 in SILENT and
ONSET. -/
def State.DeciderInRange (s : State) : Prop :=
  s.tracker.settings.InRange ∧ s.decider.state.CountsInRange ∧ -31 ≤ s.decider.dev ∧ s.decider.dev ≤ 30 ∧
    (s.decider.state = .silent → s.decider.dev = 0) ∧ ∀ m k, s.decider.state = .onset m k → s.decider.dev = 0

end Machine

end Sys2Proof
end

