-- ==== Sys2Proof/Certificates/Slice0/Obligations.lean ====
section
/-! DEFINITION. The statements for the provers. -/

open Sys2Proof Sys2Proof.Machine

/-- O1. For every command and every state, a step of the state with that command put at the front of its queue is exec of
the command on the state; and a step on an empty queue leaves the state as it is (the queue and the idling are the
model's own, log entry 7). (Section 1.5, Section 10.1.) -/
def Obligations.StepRunsTheFrontCommand : Prop :=
  (∀ (c : Instr) (s : State), step { s with pending := c :: s.pending } = exec c s) ∧
    ∀ s : State, s.pending = [] → step s = .next s

/-- O2. For every command and every state there is a next state, and its queue of waiting commands is the one before (log
entry 7). The model's choice (log entry 1): after the due completions nothing is due, and every command other than a
completion, POWER_ON among them, acts from a state with completions due as it acts from the state in which they have
been carried out, but for the commands that may write KEY or SCALE, KEYTRACK, and a port transaction that may carry
one, when they meet a due decay event or a proposal of one that waits (R107, log entry 26). (Section 1.5, Section 1.6,
R107.) -/
def Obligations.EveryCommandCompletes : Prop :=
  (∀ (c : Instr) (s : State), ∃ t, exec c s = .next t ∧ t.pending = s.pending) ∧
  ((∀ s : State, s.complete.Quiet) ∧ (∀ s : State, s.Quiet → s.complete = s) ∧
    ∀ (c : Instr) (s : State), c.isCompletion = false →
      (s.due.decay = true ∨ s.due.proposal ≠ none → c.meetsDecay = false) → exec c s = exec c s.complete)

/-- O3. From any state, POWER_ON completes with the dry delay line and the analysis history zero, the absence timer
stopped and no frame in progress, the rate monitor UNLOCKED in AUTO and TRACK with window 64,880 to 66,192, Nrate
65,536, no lists and cause RATE absent, the tracker settings of Table 2.1 and no learn, the decider SILENT with dev 0,
the fields of Table 4.1, the switch word H'AF and lock mask 0, hush absent, the chord line LISTENING with the settings
of Table 5.2, an empty FIFO, HUNT and no marks, no match, the queue empty, twelve zero accumulators with settings 512,
8 and 2,000 and no evaluation, and no cursor with the counter 0 and stopped. That no output frame and no measurement
is present, and that the shifters have taken nothing, are values the model names (log entries 14 and 23). (R6, R15,
R16, R22, R28, R53, R62, R67, R81, R98, R148.) -/
def Obligations.PowerOnBlocks : Prop :=
  ∀ (s : State) (sa : BitVec 2), ∃ t, exec (.powerOn sa) s = .next t ∧
    (∀ x ∈ t.asp.dry, x = 0#24) ∧ t.asp.dry.length = 128 ∧ (∀ x ∈ t.tracker.history, x = 0#24) ∧ t.tracker.history.length = 4096 ∧
    t.asp.absenceRunning = false ∧ t.asp.adout = none ∧ t.asp.vocal = [] ∧
    t.rate.state = .unlocked ∧ t.rate.mode = .auto ∧ t.rate.method = .track ∧ t.rate.windowMin = 64880 ∧ t.rate.windowMax = 66192 ∧
    t.rate.nrate = 65536 ∧ t.rate.acquisition = [] ∧ t.rate.remeasure = none ∧ t.rate.causeRate = false ∧ t.rate.run = none ∧
    t.tracker.settings = ⟨0, 320, 2111, 12, 6, 8, 2, 6⟩ ∧ t.tracker.learn = none ∧ t.decider = ⟨.silent, 0⟩ ∧
    t.ctx.key = ⟨0, .reset, none, none⟩ ∧ t.ctx.scale = ⟨0, .reset, none, none⟩ ∧ t.ctx.chord = ⟨none, .reset, none, none⟩ ∧
    t.ctx.switches = 0xaf#8 ∧ t.ctx.lockMask = 0#8 ∧ t.ctx.hush = none ∧ t.ctx.lineCond = .listening ∧
    t.line.settings = ⟨.b38400, .none, 48, 160, .hold, true⟩ ∧ t.line.fifo = [] ∧ t.line.assembler = .hunt ∧ t.line.silence = 0 ∧
    t.line.frameSeen = false ∧ t.line.broken = false ∧ t.line.cond = .listening ∧ t.matcher = none ∧ t.queue = [] ∧
    t.key.acc = [0, 0, 0, 0, 0, 0, 0, 0, 0, 0, 0, 0] ∧ t.key.counter = 0 ∧ t.key.decay = 512 ∧ t.key.margin = 8 ∧ t.key.minTotal = 2000 ∧
    t.key.evaluation = none ∧ t.cue = ⟨none, 0, false, .manual⟩

/-- O4. From any state, POWER_ON completes with the eight scale slots of Table 3.1, the sixteen shape slots of Table 3.3,
the sixteen plans of Table 3.5, 64 empty cue steps, length 0 and WRAP off; the voices bound to slots 0, 1, 4 and 5
with those plans active, nothing staged, no target, goal or basis, and the renderer records of Table 8.1 with all four
enables set; the stage address H'2C plus SA1:SA0 with time-out 20 ms and the time-out counter stopped, and H'00, NONE
and no data in each reply slot; output state RUN, no cause, counters 0, dev0 absent, howl detection enabled with
window 384, and no flag set. That no select holds the setup port or is refused, the stage port has no transfer, the
ramp and each fadeOld are 0, and no boundary and no completion is due, are values the model names (log entry 14).
(R39, R43, R49, R110, R129, R145, R161, R164, R165, R169, R174, R178.) -/
def Obligations.PowerOnTablesVoicesAndPorts : Prop :=
  ∀ (s : State) (sa : BitVec 2), ∃ t, exec (.powerOn sa) s = .next t ∧
    let scale := fun (slot : Nat) (members : List Nat) =>
      ∃ m, t.tables.scales[slot]? = some ⟨m, .parallel⟩ ∧ ∀ x, x < 12 → m.getLsbD x = decide (x ∈ members)
    let shape := fun (slot : Nat) (members : List Nat) => ∃ m, t.tables.shapes[slot]? = some m ∧ ∀ x, x < 12 → m.getLsbD x = decide (x ∈ members)
    let plan := fun (slot : Nat) (mode : PlanMode) (amount : Int) (fallback : Option Int) =>
      t.tables.plans[slot]? = some ⟨mode, amount, 12, 71, true, 3, 100, fallback⟩
    t.tables.scales.length = 8 ∧ scale 0 [0, 2, 4, 5, 7, 9, 11] ∧ scale 1 [0, 2, 3, 5, 7, 8, 10] ∧ scale 2 [0, 2, 3, 5, 7, 8, 11] ∧
    scale 3 [0, 2, 4, 7, 9] ∧ scale 4 [0, 3, 5, 7, 10] ∧ scale 5 [0, 2, 3, 5, 7, 9, 10] ∧ scale 6 [0, 2, 4, 5, 7, 9, 10] ∧ scale 7 [] ∧
    t.tables.shapes.length = 16 ∧ shape 0 [0, 4, 7] ∧ shape 1 [0, 3, 7] ∧ shape 2 [0, 4, 7, 10] ∧ shape 3 [0, 3, 7, 10] ∧ shape 4 [0, 4, 7, 11] ∧
    shape 5 [0, 5, 7] ∧ shape 6 [0, 3, 6] ∧ shape 7 [0, 4, 8] ∧ shape 8 [0, 2, 7] ∧ shape 9 [0, 3, 6, 10] ∧
    (∀ slot, 10 ≤ slot → slot < 16 → shape slot []) ∧
    t.tables.plans.length = 16 ∧ plan 0 .scalar 2 none ∧ plan 1 .scalar (-2) none ∧ plan 2 .scalar 4 none ∧ plan 3 .scalar (-3) none ∧
    plan 4 .chordal 1 (some 2) ∧ plan 5 .chordal (-1) (some (-2)) ∧ plan 6 .fixed 12 none ∧ plan 7 .fixed (-12) none ∧
    (∀ slot, 8 ≤ slot → slot < 16 → t.tables.plans[slot]? = some ⟨.off, 0, 0, 95, true, 0, 0, none⟩) ∧
    t.tables.cues.length = 64 ∧ (∀ c ∈ t.tables.cues, c = ⟨none, none, none, 0#8, 0#8, [], .manual⟩) ∧ t.tables.cueLength = 0 ∧ t.tables.wrap = false ∧
    (∀ i (k : Fin 16), (i, k) ∈ [((0 : Fin 4), (0 : Fin 16)), (1, 1), (2, 4), (3, 5)] →
      (t.voices.get i).res = ⟨k, t.tables.plans.getD k.val planOff, none, none, none, none⟩ ∧
      (t.voices.get i).ren = ⟨.idle, 0, 0, true, false, none, none, none, none, 0, 16384, 0, false⟩) ∧
    t.renderer = ⟨.fixed, 2048, 0, 0⟩ ∧ t.copy = ⟨0, 0, none, 0xaf#8⟩ ∧
    t.ports.holder = none ∧ t.ports.refused = none ∧ t.ports.address = 0x2c#7 + sa.setWidth 7 ∧ t.ports.transfer = .idle ∧ t.ports.timer = none ∧
    t.ports.timeout = 20 ∧ (∀ m, t.slot m = ⟨0#8, .none, []⟩) ∧ t.fault = ⟨.run, false, 0, none, 0, true, 384, 0#16⟩ ∧ t.Quiet

/-- O5. With nothing due, FRAME_SYNC completes: the frame count rises by 1 and the absence timer runs; the frame's sample
is bits 31 to 8 of its slot 0 word, or zero when fewer than 32 bits came (the word and the bits of the whole frame
come with its sync, log entry 11); the output frame's slot 0 is the dry line's oldest sample, which leaves the line
while the frame's sample joins it and the analysis history; slots 6 and 7 are zero and every slot has a zero low byte;
at most 256 bits are sent. Each voice's shifter takes the dry line's oldest sample with the voice's applied ratio code
and grain timer. A voice's sample is zero while the part is silenced or its gain is 0; otherwise it is the shifted
sample times the gain (f_old + (f_new − f_old)·n / 256) / 8, rounded one way or the other and saturated to 24 bits, n
counting frames since the last fade step and standing at 256 (log entry 22); whether an IDLE voice still carries its
last ramp is open (log entry 24). The shifted sample and the rounding are free values (log entry 3), but a shifter
that has taken zeros alone gives zero (log entry 23). The mix is the sum of the samples times level / 128, rounded one
way or the other and saturated. UNLOCKED and LOST become ACQUIRING with an empty list, and this frame sync begins the
measurement; otherwise the measurement in progress counts the frame. Nothing changes but the audio port, rate monitor,
analysis history, renderer records, fade counts and the count of free values. (R1, R2, R3, R4, R5, R7, R11, R16, R139,
R140, R141, R142.) -/
def Obligations.FrameSyncMovesSamples : Prop :=
  ∀ (s : State) (word : SlotWord) (bits : Nat), s.Quiet →
    let x : Sample := if 32 ≤ bits then word.extractLsb' 8 24 else 0#24
    let n : Nat := min 256 (s.renderer.ramp + 1)
    let saturated := fun (a : Int) => if a < -8388608 then -8388608 else if 8388607 < a then 8388607 else a
    let quotient := fun (a : Int) (d : Int) (q : Int) => d * (q - 1) < a ∧ a < d * (q + 1)
    let ratio := fun (i : Fin 4) =>
      let r := (s.voices.get i).ren
      match r.boundaryDue, r.pending with
      | true, some d => ratioCode d
      | _, _ => r.ratio
    let level := fun (i : Fin 4) => ((s.voices.get i).res.plan.level : Int)
    ∃ t frame, ∃ v : Fin 4 → Int, ∃ mix : Int, exec (.frameSync word bits) s = .next t ∧
      frame.vocal = s.asp.dry.headD 0#24 ∧ (∀ i, frame.ratios.get i = ratio i ∧ frame.timers.get i = (s.voices.get i).ren.timer) ∧
      t.asp = { frames := s.asp.frames + 1, absenceRunning := true, dry := s.asp.dry.tail ++ [x], vocal := frame :: s.asp.vocal
                adout := some ⟨[s.asp.dry.headD 0#24 ++ 0#8, BitVec.ofInt 24 (v 0) ++ 0#8, BitVec.ofInt 24 (v 1) ++ 0#8,
                  BitVec.ofInt 24 (v 2) ++ 0#8, BitVec.ofInt 24 (v 3) ++ 0#8, BitVec.ofInt 24 mix ++ 0#8, 0#32, 0#32], min bits 256⟩ } ∧
      (∀ i : Fin 4,
        let r := (s.voices.get i).ren
        let gain : Int := (r.fadeOld : Int) * 256 + ((r.fade : Int) - r.fadeOld) * n
        let taken := t.asp.vocal.map fun f => (f.vocal, f.ratios.get i, f.timers.get i)
        let shifted : Int := if ∀ f ∈ t.asp.vocal, f.vocal = 0#24 then 0 else Config.shiftedSample s.draws i.val taken
        (s.fault.output = .bypass ∨ s.ctx.hush ≠ none ∨ gain = 0 → v i = 0) ∧
        (s.fault.output ≠ .bypass → s.ctx.hush = none → gain ≠ 0 →
          (r.state = .idle ∧ v i = 0) ∨ ∃ q, quotient (shifted * gain) 2048 q ∧ v i = saturated q) ∧
        (s.fault.output ≠ .bypass → s.ctx.hush = none → r.state ≠ .idle → ∃ q, quotient (shifted * gain) 2048 q ∧ v i = saturated q)) ∧
      (∃ q, quotient (v 0 * level 0 + v 1 * level 1 + v 2 * level 2 + v 3 * level 3) 128 q ∧ mix = saturated q) ∧
      t.tracker = { s.tracker with history := s.tracker.history.tail ++ [x] } ∧
      t.rate = (if s.rate.state = .unlocked ∨ s.rate.state = .lost then
          { s.rate with state := .acquiring, acquisition := [], acquisitionClass := none, run := some 0 }
        else { s.rate with run := s.rate.run.map (· + 1) }) ∧
      (∀ i : Fin 4, (t.voices.get i).res = (s.voices.get i).res) ∧
      t = { s with asp := t.asp, rate := t.rate, tracker := t.tracker, voices := t.voices, renderer := t.renderer, due := t.due, draws := t.draws }

/-- O6. From a state whose dry line holds 128 samples, after 128 or more frame syncs in a row the next frame sync's output
slot 0 carries the input sample of the frame sync 128 frames before it, whatever the rest of the state is. (R3.) -/
def Obligations.DryPathDelays128Frames : Prop :=
  ∀ (s : State) (frames : List (SlotWord × Nat)) (old : SlotWord × Nat) (later : List (SlotWord × Nat)) (word : SlotWord) (bits : Nat),
    s.asp.dry.length = 128 → later.length = 127 →
    let run := fun (u : State) (f : SlotWord × Nat) =>
      match exec (.frameSync f.1 f.2) u with
      | .next t => t
      | _ => u
    let x : Sample := if 32 ≤ old.2 then old.1.extractLsb' 8 24 else 0#24
    ∃ t, exec (.frameSync word bits) ((frames ++ old :: later).foldl run s) = .next t ∧
      t.asp.adout.map (fun f => f.slots.head?) = some (some (x ++ 0#8))

/-- O7. With nothing due, at a FRAME_SYNC each voice's grain timer rises by 16, and when that reaches the grain length the
voice has a boundary and the timer drops by the length, or to 0 when still at the length or more. A boundary that the
last frame left is first taken, and adopts a pending shift, after a rate loss too (log entry 28). In LOCKED (as the
frame sync leaves the state) the fade-step count stands; otherwise it rises by 1, and at 256 returns to 0 with a fade
step. The model's choices: a boundary stands as a due mark until GRAIN_BOUNDARY or the next frame sync takes it, and a
fade step as a due mark that FADE_STEP_COUNT or the next other command takes (log entry 1), and the ramp counts the
frame up to 256 and stops there (log entry 22). (R135, R136, R139.) -/
def Obligations.FrameSyncMovesGrains : Prop :=
  ∀ (s : State) (word : SlotWord) (bits : Nat), s.Quiet →
    ∃ t, exec (.frameSync word bits) s = .next t ∧
      (∀ i : Fin 4,
        let r := (s.voices.get i).ren
        let u : RenderRecord := if r.boundaryDue = true then
            match r.pending with
            | some d => { r with applied := d, ratio := ratioCode d, pending := none, boundaryDue := false }
            | none => { r with boundaryDue := false }
          else r
        let len := s.renderer.grainLength
        (t.voices.get i).ren =
          if r.timer + 16 < len then { u with timer := r.timer + 16 }
          else { u with timer := if r.timer + 16 - len < len then r.timer + 16 - len else 0, boundaryDue := true }) ∧
      t.renderer.ramp = min 256 (s.renderer.ramp + 1) ∧
      t.renderer.grainMode = s.renderer.grainMode ∧ t.renderer.grainLength = s.renderer.grainLength ∧
      (s.rate.state = .locked → t.renderer.fadeCount = s.renderer.fadeCount ∧ t.Quiet) ∧
      (s.rate.state ≠ .locked → s.renderer.fadeCount + 1 < 256 → t.renderer.fadeCount = s.renderer.fadeCount + 1 ∧ t.Quiet) ∧
      (s.rate.state ≠ .locked → 256 ≤ s.renderer.fadeCount + 1 →
        t.renderer.fadeCount = 0 ∧ t.due = { Due.nothing with fadeStep := true })

/-- O8. With nothing due and the absence timer running, FRAME_ABSENCE stops the timer, sets all 128 dry samples and the
4,096 history samples to zero, and ADOUT carries zero, and the shifters have taken zeros alone (log entry 23); in
UNLOCKED and LOST the rate monitor is unchanged, and in ACQUIRING its list and the measurement in progress are
discarded and the state becomes LOST if cause RATE is present, else UNLOCKED; nothing else changes. With the timer
stopped it changes nothing. (R3, R4, R10, R16, R141.) -/
def Obligations.FrameAbsenceClearsTheLine : Prop :=
  ∀ s : State, s.Quiet →
    (s.asp.absenceRunning = false → exec .frameAbsence s = .next s) ∧
    (s.asp.absenceRunning = true → s.rate.state ≠ .locked →
      exec .frameAbsence s = .next { s with
        asp := { s.asp with absenceRunning := false, dry := List.replicate 128 0#24, adout := none, vocal := [] }
        tracker := { s.tracker with history := List.replicate 4096 0#24 }
        rate := if s.rate.state = .acquiring then
            { s.rate with state := if s.rate.causeRate = true then .lost else .unlocked, acquisition := [], acquisitionClass := none, run := none }
          else s.rate }) ∧
    (s.asp.absenceRunning = true → s.rate.state = .locked →
      ∃ t, exec .frameAbsence s = .next t ∧ t.rate.state = .lost ∧ t.rate.causeRate = true ∧
        t.asp = { s.asp with absenceRunning := false, dry := List.replicate 128 0#24, adout := none, vocal := [] } ∧
        t.tracker.history = List.replicate 4096 0#24)

/-- O9. With nothing due, in LOCKED with 256 frames counted and no remeasure running: a measurement in the lock window
(the manual window in MANUAL; the locked class's window in AUTO, or both windows when the locked class is MANUAL) sets
the out count to 0, the locked class to its class, and under TRACK Nrate to itself, and yields a hop; one outside it,
when it is not the fourth in a row, raises the out count by 1, leaves Nrate, and yields a hop. With nothing due, in
LOCKED with 256 frames counted and a remeasure list of at most 4 entries: an in-lock measurement joins the list, whose
oldest of five leaves; when it then holds 4 entries within 64 of each other the remeasure ends with RATELOCK set, and
under HOLD Nrate becomes the floor of the mean, under TRACK the measurement; otherwise the list stands. An out-of-lock
measurement that is not the fourth in a row empties the list. Either way the state stays LOCKED and the hop is issued.
(R9, R12, R14.) -/
def Obligations.LockedJudgesMeasurements : Prop :=
  (∀ (s : State) (m : Nat) (a : Analysis) (o : RenderOrder) (n : Nat), s.Quiet → s.rate.state = .locked → s.rate.run = some n → 256 ≤ n →
    s.rate.remeasure = none →
    let inside := s.rate.classOf m ≠ none ∧
      (s.rate.mode = .auto → s.rate.lockedClass = some .k48 ∨ s.rate.lockedClass = some .k44 → s.rate.classOf m = s.rate.lockedClass)
    (inside →
      ∃ t, exec (.measurement m a o) s = .next t ∧ t.key.counter = s.key.counter + 1 ∧
        t.rate = { s.rate with run := some (n - 256), outCount := 0, lockedClass := s.rate.classOf m,
                               nrate := if s.rate.method = .track then m else s.rate.nrate }) ∧
    (¬inside → s.rate.outCount < 3 →
      ∃ t, exec (.measurement m a o) s = .next t ∧ t.key.counter = s.key.counter + 1 ∧
        t.rate = { s.rate with run := some (n - 256), outCount := s.rate.outCount + 1 })) ∧
  (∀ (s : State) (m : Nat) (a : Analysis) (o : RenderOrder) (n : Nat) (l : List Nat), s.Quiet → s.rate.state = .locked → s.rate.run = some n →
    256 ≤ n → s.rate.remeasure = some l → l.length ≤ 4 →
    let list := if l.length = 4 then l.tail ++ [m] else l ++ [m]
    let agree := list.length = 4 ∧ ∀ x ∈ list, ∀ y ∈ list, x ≤ y + 64
    ∃ t, exec (.measurement m a o) s = .next t ∧
      (s.rate.inLock m = true → agree → t.rate.remeasure = none ∧ t.flag .rateLock = true ∧ t.rate.state = .locked ∧
        t.key.counter = s.key.counter + 1 ∧ t.rate.nrate = if s.rate.method = .hold then list.sum / 4 else m) ∧
      (s.rate.inLock m = true → ¬agree → t.rate.remeasure = some list ∧ t.flag .rateLock = s.flag .rateLock ∧ t.rate.state = .locked ∧
        t.key.counter = s.key.counter + 1 ∧ t.rate.nrate = if s.rate.method = .hold then s.rate.nrate else m) ∧
      (s.rate.inLock m = false → s.rate.outCount < 3 → t.rate.remeasure = some [] ∧ t.rate.state = .locked ∧
        t.key.counter = s.key.counter + 1 ∧ t.rate.nrate = s.rate.nrate))

/-- O10. With nothing due, in ACQUIRING with 256 frames counted: a measurement of class OUT empties the list; one whose
class is not the list's replaces it; otherwise it joins the list, whose oldest of five leaves. When the list then
holds 4 entries within 64 of each other the state becomes LOCKED with the list's class, out count 0, Nrate the newest
entry (TRACK) or the floor of the mean (HOLD), an empty list and cause RATE absent, RATELOCK is set, and a hop is
issued (the decay counter counts one); the clearing of a present cause takes DEGRADED naming RATE to RECOVERING with
counter 0, which the lock's own hop, the first, raises to 1, and RUN and BYPASS stand. Otherwise only the rate monitor
changes and no hop is issued. In AUTO a measurement of 64,880 to 66,192 has class 48K, one of 70,620 to 72,046 class
44K1, and any other is OUT; in MANUAL one from the manual minimum to the manual maximum has class MANUAL, and any
other is OUT. (R5, R8, R12, R176, Table 1.9.) -/
def Obligations.AcquiringTakesMeasurements : Prop :=
  (∀ (s : State) (m : Nat) (a : Analysis) (o : RenderOrder) (n : Nat), s.Quiet → s.rate.state = .acquiring → s.rate.run = some n → 256 ≤ n →
    s.rate.acquisition.length ≤ 4 →
    let same := s.rate.acquisition ≠ [] ∧ s.rate.acquisitionClass = s.rate.classOf m
    let list := if same then (if s.rate.acquisition.length = 4 then s.rate.acquisition.tail ++ [m] else s.rate.acquisition ++ [m]) else [m]
    let agree := list.length = 4 ∧ ∀ x ∈ list, ∀ y ∈ list, x ≤ y + 64
    (s.rate.classOf m = none →
      exec (.measurement m a o) s = .next { s with rate := { s.rate with run := some (n - 256), acquisition := [], acquisitionClass := none } }) ∧
    (s.rate.classOf m ≠ none → ¬agree →
      exec (.measurement m a o) s =
        .next { s with rate := { s.rate with run := some (n - 256), acquisition := list, acquisitionClass := s.rate.classOf m } }) ∧
    (s.rate.classOf m ≠ none → agree →
      ∃ t, exec (.measurement m a o) s = .next t ∧ t.flag .rateLock = true ∧ t.key.counter = s.key.counter + 1 ∧
        t.rate = { s.rate with run := some (n - 256), state := .locked, lockedClass := s.rate.classOf m, outCount := 0,
                               nrate := if s.rate.method = .track then m else list.sum / 4, acquisition := [], acquisitionClass := none,
                               causeRate := false } ∧
        (s.fault.output = .degraded .rate → s.rate.causeRate = true → t.fault.output = .recovering ∧ t.fault.recovery = 1) ∧
        (s.fault.output = .run ∨ s.fault.output = .bypass → t.fault.output = s.fault.output))) ∧
  (∀ (r : Rate) (m : Nat),
    (r.mode = .auto → 64880 ≤ m → m ≤ 66192 → r.classOf m = some .k48) ∧
    (r.mode = .auto → 70620 ≤ m → m ≤ 72046 → r.classOf m = some .k44) ∧
    (r.mode = .auto → (m < 64880 ∨ (66192 < m ∧ m < 70620) ∨ 72046 < m) → r.classOf m = none) ∧
    (r.mode = .manual → r.windowMin ≤ m → m ≤ r.windowMax → r.classOf m = some .manual) ∧
    (r.mode = .manual → (m < r.windowMin ∨ r.windowMax < m) → r.classOf m = none))

/-- O11. With nothing due, in LOCKED, the fourth outside measurement in a row and a frame absence both make the state LOST
with cause RATE present, out count 0, no remeasure list and no measurement in progress, Nrate kept, and issue no hop
(the decay counter stands). The decider is SILENT with dev 0, a learn in progress fails with LEARNFAIL, cause HOWL and
its counter clear, and the grain mode is FIXED with length 2,048 at once. The output state RUN becomes DEGRADED naming
RATE with FAULT set, and each RISING or SOUNDING voice becomes FALLING, or IDLE at f = 0; RECOVERING and DEGRADED
naming HOWL become BYPASS with its flag set, and every voice is IDLE at f = 0 with no ramp; BYPASS stays. The resolver
records, the context, the tables, the chord queue and the cue unit are unchanged and no note event is due. (R11, R26,
R36, R135, R137, R140, R143, R173, R176.) -/
def Obligations.RateLossEntersLost : Prop :=
  ∀ (s : State) (c : Instr), s.Quiet → s.rate.state = .locked →
    ((c = .frameAbsence ∧ s.asp.absenceRunning = true) ∨
      ∃ m a o n, c = .measurement m a o ∧ s.rate.run = some n ∧ 256 ≤ n ∧ s.rate.inLock m = false ∧ s.rate.outCount = 3) →
    ∃ t, exec c s = .next t ∧
      t.rate = { s.rate with state := .lost, causeRate := true, outCount := 0, remeasure := none, run := none } ∧
      t.key = s.key ∧ t.decider = ⟨.silent, 0⟩ ∧ t.tracker.learn = none ∧ t.tracker.settings = s.tracker.settings ∧
      t.flag .learnFail = (s.flag .learnFail || s.tracker.learn.isSome) ∧ t.fault.causeHowl = false ∧ t.fault.howlCounter = 0 ∧
      t.fault.dev0 = none ∧ t.renderer = { s.renderer with grainMode := .fixed, grainLength := 2048 } ∧
      (s.fault.output = .run → t.fault.output = .degraded .rate ∧ t.flag .fault = true ∧
        ∀ i, let r := (s.voices.get i).ren
          (t.voices.get i).ren = if r.state = .rising ∨ r.state = .sounding then { r with state := if r.fade = 0 then .idle else .falling } else r) ∧
      (s.fault.output = .recovering ∨ s.fault.output = .degraded .howl → t.fault.output = .bypass ∧ t.flag .bypass = true ∧
        ∀ i, (t.voices.get i).ren = { (s.voices.get i).ren with state := .idle, fade := 0, fadeOld := 0 }) ∧
      (s.fault.output = .bypass → t.fault.output = .bypass) ∧ (∀ i, (t.voices.get i).res = (s.voices.get i).res) ∧ t.Quiet ∧
      t.ctx = s.ctx ∧ t.tables = s.tables ∧ t.queue = s.queue ∧ t.cue = s.cue ∧ t.line = s.line ∧ t.ports = s.ports ∧ t.copy = s.copy

/-- O12. For a peak of at most full scale with A = −20·log10(peak / 8,388,607): the level code is 0 when the peak is zero
or A is 93 dB or more, and otherwise 63 − floor(A / 1.5). For every Nrate and P16 in their ranges, with f = 12,288,000
× 256 × 16 / (Nrate × P16): the raw code is floor(1440 + 384·log2(f / 440) + 1/2), and the report's pitch code is the
raw code minus the trim when that lies in 0 to 3071, and absent otherwise. For every shift of −768 to +768 the ratio
code is floor(16384 · 2^(shift / 384) + 1/2). (R17, R18, R134.) -/
def Obligations.CodesAreTheRealFormulas : Prop :=
  (∀ peak : Nat, peak ≤ 8388607 →
    let A : ℝ := -20 * Real.logb 10 ((peak : ℝ) / 8388607)
    (peak = 0 ∨ 93 ≤ A → levelCode peak = 0) ∧ (peak ≠ 0 → A < 93 → (levelCode peak : ℤ) = 63 - ⌊A / 1.5⌋)) ∧
  (∀ (nrate p16 : Nat) (trim : Int), 32768 ≤ nrate → nrate ≤ 131071 → 32 ≤ p16 → p16 ≤ 32768 →
    let f : ℝ := 12288000 * 256 * 16 / ((nrate : ℝ) * p16)
    rawCode nrate p16 = ⌊1440 + 384 * Real.logb 2 (f / 440) + 1 / 2⌋ ∧
      pitchCode nrate p16 trim =
        (if 0 ≤ rawCode nrate p16 - trim ∧ rawCode nrate p16 - trim ≤ 3071 then some (rawCode nrate p16 - trim).toNat else none)) ∧
  ∀ shift : Int, -768 ≤ shift → shift ≤ 768 → (ratioCode shift : ℤ) = ⌊16384 * (2 : ℝ) ^ ((shift : ℝ) / 384) + 1 / 2⌋

/-- O13. A pitch report is voiced exactly when its pitch code is present and lies within the tracker window, its level
code is at least the gate and its confidence at least the threshold, by the settings in force; an unvoiced report
still carries its code, period, confidence and level; and the note decider's handling depends on the voiced flag and,
for a voiced report, the pitch code alone. (R19.) -/
def Obligations.VoicedReportPassesFourTests : Prop :=
  (∀ (t : TrackerSettings) (nrate level p c : Nat), 32 ≤ p → p ≤ 32768 → 1 ≤ c → c ≤ 15 →
    let r := makeReport t nrate level (.found p c)
    (r.voiced = true ↔ (∃ x, r.code = some x ∧ t.low ≤ x ∧ x ≤ t.high) ∧ t.gate ≤ r.level ∧ t.confidence ≤ r.confidence) ∧
      r.code = pitchCode nrate p t.trim ∧ r.period = some p ∧ r.confidence = c ∧ r.level = level) ∧
  (∀ (t : TrackerSettings) (nrate level : Nat), makeReport t nrate level .noPeriod = ⟨false, none, none, 0, level⟩) ∧
  (∀ (t : TrackerSettings) (d : Decider) (r q : Report), r.voiced = q.voiced → (r.voiced = true → r.code = q.code) →
    deciderReport t d r = deciderReport t d q)

/-- O14. In SILENT an unvoiced report leaves the decider in SILENT with dev 0 and no event; a voiced report with code c
and candidate m gives ONSET with candidate m and count 1 when S is above 1, and otherwise HELD(m) with note-on m and
dev c − 32m. In ONSET with candidate k: a voiced report with candidate k raises the count by 1, and at S or more gives
HELD(k) with note-on k and dev c − 32k; a voiced report with another candidate m restarts the count at 1, which
completes at once when S is 1; an unvoiced report gives SILENT with no event. (R30, R31.) -/
def Obligations.DeciderStartsANote : Prop :=
  (∀ (t : TrackerSettings) (d : Decider) (c level period confidence : Nat) (code : Option Nat), d.state = .silent →
    let m := min 95 ((c + 16) / 32)
    let voiced := deciderReport t d ⟨true, some c, some period, confidence, level⟩
    let unvoiced := deciderReport t d ⟨false, code, some period, confidence, level⟩
    unvoiced = (⟨.silent, 0⟩, none) ∧ (1 < t.settle → voiced = (⟨.onset m 1, 0⟩, none)) ∧
      (t.settle ≤ 1 → voiced = (⟨.held m, (c : Int) - 32 * m⟩, some (.noteOn m)))) ∧
  (∀ (t : TrackerSettings) (d : Decider) (c level period confidence : Nat) (code : Option Nat) (k n : Nat), d.state = .onset k n →
    let m := min 95 ((c + 16) / 32)
    let voiced := deciderReport t d ⟨true, some c, some period, confidence, level⟩
    let unvoiced := deciderReport t d ⟨false, code, some period, confidence, level⟩
    unvoiced = (⟨.silent, 0⟩, none) ∧
      (m = k → n + 1 < t.settle → voiced = (⟨.onset k (n + 1), 0⟩, none)) ∧
      (m = k → t.settle ≤ n + 1 → voiced = (⟨.held k, (c : Int) - 32 * k⟩, some (.noteOn k))) ∧
      (m ≠ k → 1 < t.settle → voiced = (⟨.onset m 1, 0⟩, none)) ∧
      (m ≠ k → t.settle ≤ 1 → voiced = (⟨.held m, (c : Int) - 32 * m⟩, some (.noteOn m))))

/-- O15. In HELD(N): a voiced report inside N's band keeps HELD(N) with dev c − 32N; one outside it with candidate m gives
TRANSITION(N, m) with count 1 and dev kept, or, when S is 1, HELD(m) with note-change N to m and dev c − 32m, and m
differs from N; an unvoiced report gives RELEASING(N) with count 1 and dev kept, or, when Rl is 1, SILENT with dev 0
and note-off N. In TRANSITION(N, k) with count n: a voiced report inside N's band gives HELD(N) with no event and dev
c − 32N; outside it with candidate k the count rises by 1 and at S or more gives HELD(k) with note-change N to k and
dev c − 32k; outside it with another candidate m the count restarts at 1, completing at once when S is 1; an unvoiced
report gives RELEASING(N) with count 1, or SILENT with note-off N when Rl is 1. Until it ends, dev keeps its value and
the note reported is N. In RELEASING(N) with count n: an unvoiced report raises the count by 1, and at Rl or more
gives SILENT with dev 0 and note-off N; a voiced report inside N's band gives HELD(N) with no event and dev c − 32N;
one outside it with candidate m gives TRANSITION(N, m) with count 1 and dev kept, or HELD(m) with note-change N to m
and dev c − 32m when S is 1. (R32, R33, R34.) -/
def Obligations.DeciderKeepsANote : Prop :=
  (∀ (t : TrackerSettings) (d : Decider) (c level period confidence : Nat) (code : Option Nat) (N : Nat), d.state = .held N → N ≤ 95 → c ≤ 3055 →
    let m := min 95 ((c + 16) / 32)
    let voiced := deciderReport t d ⟨true, some c, some period, confidence, level⟩
    let unvoiced := deciderReport t d ⟨false, code, some period, confidence, level⟩
    let inside := (32 * N : Int) - 16 - t.hysteresis ≤ c ∧ (c : Int) ≤ 32 * N + 15 + t.hysteresis
    (inside → voiced = (⟨.held N, (c : Int) - 32 * N⟩, none)) ∧
      (¬inside → m ≠ N ∧ (1 < t.settle → voiced = (⟨.transition N m 1, d.dev⟩, none)) ∧
        (t.settle ≤ 1 → voiced = (⟨.held m, (c : Int) - 32 * m⟩, some (.noteChange N m)))) ∧
      (1 < t.release → unvoiced = (⟨.releasing N 1, d.dev⟩, none)) ∧ (t.release ≤ 1 → unvoiced = (⟨.silent, 0⟩, some (.noteOff N)))) ∧
  (∀ (t : TrackerSettings) (d : Decider) (c level period confidence : Nat) (code : Option Nat) (N k n : Nat), d.state = .transition N k n →
    let m := min 95 ((c + 16) / 32)
    let voiced := deciderReport t d ⟨true, some c, some period, confidence, level⟩
    let unvoiced := deciderReport t d ⟨false, code, some period, confidence, level⟩
    let inside := (32 * N : Int) - 16 - t.hysteresis ≤ c ∧ (c : Int) ≤ 32 * N + 15 + t.hysteresis
    d.state.note = some N ∧ (inside → voiced = (⟨.held N, (c : Int) - 32 * N⟩, none)) ∧
      (¬inside → m = k → n + 1 < t.settle → voiced = (⟨.transition N k (n + 1), d.dev⟩, none)) ∧
      (¬inside → m = k → t.settle ≤ n + 1 → voiced = (⟨.held k, (c : Int) - 32 * k⟩, some (.noteChange N k))) ∧
      (¬inside → m ≠ k → 1 < t.settle → voiced = (⟨.transition N m 1, d.dev⟩, none)) ∧
      (¬inside → m ≠ k → t.settle ≤ 1 → voiced = (⟨.held m, (c : Int) - 32 * m⟩, some (.noteChange N m))) ∧
      (1 < t.release → unvoiced = (⟨.releasing N 1, d.dev⟩, none)) ∧ (t.release ≤ 1 → unvoiced = (⟨.silent, 0⟩, some (.noteOff N)))) ∧
  (∀ (t : TrackerSettings) (d : Decider) (c level period confidence : Nat) (code : Option Nat) (N n : Nat), d.state = .releasing N n →
    let m := min 95 ((c + 16) / 32)
    let voiced := deciderReport t d ⟨true, some c, some period, confidence, level⟩
    let unvoiced := deciderReport t d ⟨false, code, some period, confidence, level⟩
    let inside := (32 * N : Int) - 16 - t.hysteresis ≤ c ∧ (c : Int) ≤ 32 * N + 15 + t.hysteresis
    (n + 1 < t.release → unvoiced = (⟨.releasing N (n + 1), d.dev⟩, none)) ∧
      (t.release ≤ n + 1 → unvoiced = (⟨.silent, 0⟩, some (.noteOff N))) ∧
      (inside → voiced = (⟨.held N, (c : Int) - 32 * N⟩, none)) ∧
      (¬inside → 1 < t.settle → voiced = (⟨.transition N m 1, d.dev⟩, none)) ∧
      (¬inside → t.settle ≤ 1 → voiced = (⟨.held m, (c : Int) - 32 * m⟩, some (.noteChange N m))))

/-- O16. With nothing due, when 256 frames have been counted and the measurement's handling issues a hop: the decider
takes the report that the search result, the level of the block's 256 samples (those before the newest, which the
completing frame sync brought, log entry 8) and the Nrate just set give, and the event it emits is due (the events,
the learn's end, the decay event, the dwell expiry and a change of line condition stand as due marks, log entry 1); a
learn in progress observes the report's level and completes at 64; the accumulator of a HELD note's pitch class takes
the confidence of a voiced report; the decay counter rises by 1 and at D a decay event is due; the grain mode is
PERIOD with the report's period when it is voiced and a note is reported, else FIXED with 2,048; an enabled line's
silence counter rises by 1, at most to 4,095, and when the condition that R88 derives from the counter so raised
differs from the line condition, SILENCE_THRESHOLD is due; and a dwell in progress counts one hop, with its expiry due
at h. The audio port, tables, context, context copy, chord queue, match and ports are unchanged. (R12, R16, R17, R20,
R24, R86, R88, R89, R99, R101, R135, R154.) -/
def Obligations.HopReachesEveryBlock : Prop :=
  ∀ (s : State) (m : Nat) (a : Analysis) (o : RenderOrder) (n : Nat), s.Quiet → s.rate.run = some n → 256 ≤ n →
    (State.measure { s with rate := { s.rate with run := some (n - 256) } } m).2 = true →
    ∃ t, exec (.measurement m a o) s = .next t ∧
      let level := levelCode (peakOf ((s.tracker.history.drop (s.tracker.history.length - 257)).take 256))
      let r := makeReport s.tracker.settings t.rate.nrate level a
      let derived : LineCondition := if s.line.settings.enable = false then .off else if s.line.broken = true then .broken
        else if s.line.settings.lost ≠ 0 ∧ 8 * s.line.settings.lost ≤ t.line.silence then .lost
        else if s.line.settings.stale ≠ 0 ∧ 8 * s.line.settings.stale ≤ t.line.silence then .stale
        else if s.line.frameSeen = true then .active else .listening
      (t.decider, t.due.note) = deciderReport s.tracker.settings s.decider r ∧
      t.tracker = { s.tracker with learn := s.tracker.learn.map fun l =>
        ⟨l.method, l.count + 1, min l.smallest level, max l.largest level, l.sum + level⟩ } ∧
      t.due.learn = (s.tracker.learn.any fun l => decide (64 ≤ l.count + 1)) ∧
      t.key.acc = (if r.voiced = true then
          match t.decider.state with
          | .held N => integrate s.key.acc (N % 12) r.confidence
          | _ => s.key.acc
        else s.key.acc) ∧
      t.key.counter = s.key.counter + 1 ∧ t.due.decay = decide (s.key.decay ≤ s.key.counter + 1) ∧ t.key.evaluation = s.key.evaluation ∧
      t.renderer.grainMode = (if r.voiced = true ∧ t.decider.state.note ≠ none then .period else .fixed) ∧
      (∀ p, r.period = some p → r.voiced = true → t.decider.state.note ≠ none → t.renderer.grainLength = p) ∧
      (r.voiced = false ∨ t.decider.state.note = none → t.renderer.grainLength = 2048) ∧
      t.line = { s.line with silence := if s.line.settings.enable = true then min 4095 (s.line.silence + 1) else s.line.silence } ∧
      t.due.silence = decide (derived ≠ s.line.cond) ∧
      t.due.proposal = none ∧
      (∀ h, s.cue.entered = .dwell h → s.cue.running = true → s.cue.cursor ≠ none →
        t.cue = { s.cue with counter := s.cue.counter + 1 } ∧ t.due.dwell = decide (h ≤ s.cue.counter + 1)) ∧
      ((∀ h, s.cue.entered ≠ .dwell h) ∨ s.cue.running = false ∨ s.cue.cursor = none → t.cue = s.cue ∧ t.due.dwell = false) ∧
      t.asp = s.asp ∧ t.tables = s.tables ∧ t.ctx = s.ctx ∧ t.copy = s.copy ∧ t.queue = s.queue ∧ t.matcher = s.matcher ∧ t.ports = s.ports

/-- O17. With nothing due, when 256 frames have been counted and the measurement's handling, which leaves u, issues a hop:
in RECOVERING the recovery counter rises by 1, and at 64 the recovery's end is due. An entry of the decider to SILENT
clears cause HOWL, the howl counter and dev0, and takes DEGRADED naming HOWL to RECOVERING with counter 0. The howl
check takes the report with the decider as it left it and the voices as they stand: enabled and with cause HOWL
absent, when the decider is HELD, the confidence 15, the level 58 or more, a voice SOUNDING and dev within 1 of a
present dev0, the counter rises by 1, a counter of 0 takes dev0 from dev, and the declaration is due at W or more;
else the counter is 0 and dev0 absent. Every voice takes a fade step, the fade-step count and the ramp restart at 0,
and then, before or after the report, it takes its glide step and forms its requested shift with the dev in force, or
that hop work is due (log entry 1), all four voices at one place of the hop (log entry 8); then its sound condition is
tested, whose decider term waits while this hop's note-on is due (log entry 2). The resolver records stand. That the
recovery count comes first, and the place of the howl check, are the model's reading (log entry 16). The due marks are
the model's own (log entry 1). (R12, R20, R131, R133, R135, R137, R138, R139, R173, R176.) -/
def Obligations.HopMovesFaultsAndVoices : Prop :=
  ∀ (s : State) (m : Nat) (a : Analysis) (o : RenderOrder) (n : Nat), s.Quiet → s.rate.run = some n → 256 ≤ n →
    let u := (State.measure { s with rate := { s.rate with run := some (n - 256) } } m).1
    (State.measure { s with rate := { s.rate with run := some (n - 256) } } m).2 = true →
    ∃ t, exec (.measurement m a o) s = .next t ∧
      let level := levelCode (peakOf ((s.tracker.history.drop (s.tracker.history.length - 257)).take 256))
      let r := makeReport s.tracker.settings t.rate.nrate level a
      let faded := fun (x : RenderRecord) => match x.state with
        | .rising => { x with fadeOld := x.fade, fade := min 8 (x.fade + 2), state := if 6 ≤ x.fade then .sounding else .rising }
        | .falling => { x with fadeOld := x.fade, fade := x.fade - 1, state := if x.fade ≤ 1 then .idle else .falling }
        | _ => { x with fadeOld := x.fade }
      let counted := if u.fault.output = .recovering then { u.fault with recovery := u.fault.recovery + 1 } else u.fault
      let recovers := counted.causeHowl = true ∧ counted.output = .degraded .howl
      let silenced := if t.decider.state = .silent ∧ s.decider.state ≠ .silent then
          { counted with causeHowl := false, howlCounter := 0, dev0 := none, output := if recovers then .recovering else counted.output
                         recovery := if recovers then 0 else counted.recovery }
        else counted
      let judged := silenced.howlEnable = true ∧ silenced.causeHowl = false
      let sounding := ∃ i, (if o = .first then faded (s.voices.get i).ren else (s.voices.get i).ren).state = .sounding
      let terms := (∃ N, t.decider.state = .held N) ∧ r.confidence = 15 ∧ 58 ≤ level ∧ sounding ∧
        ∀ d, silenced.dev0 = some d → t.decider.dev - d ≤ 1 ∧ d - t.decider.dev ≤ 1
      (judged → terms → t.fault = { silenced with
          howlCounter := silenced.howlCounter + 1, dev0 := if silenced.howlCounter = 0 then some t.decider.dev else silenced.dev0 } ∧
        t.due.howl = decide (silenced.window ≤ silenced.howlCounter + 1)) ∧
      (judged → ¬terms → t.fault = { silenced with howlCounter := 0, dev0 := none } ∧ t.due.howl = false) ∧
      (¬judged → t.fault = silenced ∧ t.due.howl = false) ∧
      t.due.recovery = decide (u.fault.output = .recovering ∧ 64 ≤ u.fault.recovery + 1) ∧
      t.renderer.fadeCount = 0 ∧ t.renderer.ramp = 0 ∧ t.due.render = decide (o = .last) ∧ t.due.fadeStep = false ∧
      ∀ i : Fin 4,
        let v := s.voices.get i
        let dev := if o = .first then s.decider.dev else t.decider.dev
        let worked := if o = .last then faded v.ren else (faded v.ren).hopWork v.res.plan.follow dev
        (t.voices.get i).res = v.res ∧ (t.voices.get i).ren = worked.retest (t.soundCondition worked)

/-- O18. With nothing due, TRACKER from PANEL whose fields all lie in the ranges of Table 2.1 with low + 384 ≤ high
replaces the eight settings and replies DONE; otherwise no setting changes and the reply is RANGE. Nothing else
changes but the PANEL reply slot. With nothing due and from PANEL, each command with a field outside its range replies
RANGE and changes nothing but the reply slot. Otherwise: RATE stores mode, method and window with DONE; REMEASURE
stores them and in LOCKED starts an empty remeasure list with ACCEPTED, else DONE; KEYTRACK stores decay period,
margin and minimum total with DONE and the three settings, and KEYTRACK_CLEAR also clears the accumulators and the
counter; HOWL stores the enable and the window with DONE and both, and disabling clears the counter and dev0; TWOWIRE
stores the time-out with DONE and the time-out. Nothing else changes. REMEASURE and KEYTRACK_CLEAR are forms of RATE
and KEYTRACK (log entry 15). (R13, R14, R21, R106, R165, R169, R174.) -/
def Obligations.SettingCommandsReplaceTheirSettings : Prop :=
  (∀ (s : State) (b : TrackerBytes), s.Quiet →
    let ok := -16 ≤ b.trim.toInt ∧ b.trim.toInt ≤ 16 ∧ 256 ≤ b.low.toNat ∧ b.low.toNat ≤ 1535 ∧ 1024 ≤ b.high.toNat ∧ b.high.toNat ≤ 2559 ∧
      b.gate.toNat ≤ 63 ∧ 1 ≤ b.confidence.toNat ∧ b.confidence.toNat ≤ 15 ∧ b.hysteresis.toNat ≤ 15 ∧ 1 ≤ b.settle.toNat ∧
      b.settle.toNat ≤ 8 ∧ 1 ≤ b.release.toNat ∧ b.release.toNat ≤ 64 ∧ b.low.toNat + 384 ≤ b.high.toNat
    (ok → exec (.tracker .panel b) s = .next { s with
        tracker := { s.tracker with settings := ⟨b.trim.toInt, b.low.toNat, b.high.toNat, b.gate.toNat, b.confidence.toNat, b.hysteresis.toNat,
          b.settle.toNat, b.release.toNat⟩ }
        ports := { s.ports with psel := ⟨0x40#8, .done, []⟩ } }) ∧
      (¬ok → exec (.tracker .panel b) s = .next { s with ports := { s.ports with psel := ⟨0x40#8, .range, []⟩ } })) ∧
  (∀ s : State, s.Quiet →
    (∀ b : RateBytes,
      let ok := b.mode.toNat ≤ 1 ∧ b.method.toNat ≤ 1 ∧ 32768 ≤ b.minimum.toNat ∧ b.minimum.toNat < b.maximum.toNat ∧ b.maximum.toNat ≤ 131071
      let set := { s.rate with mode := if b.mode = 0#8 then .auto else .manual, method := if b.method = 0#8 then .track else .hold
                               windowMin := b.minimum.toNat, windowMax := b.maximum.toNat }
      (¬ok → exec (.rate .panel b) s = .next (s.reply .panel ⟨0x42#8, .range, []⟩) ∧
        exec (.remeasure .panel b) s = .next (s.reply .panel ⟨0x42#8, .range, []⟩)) ∧
      (ok → exec (.rate .panel b) s = .next (State.reply { s with rate := set } .panel ⟨0x42#8, .done, []⟩) ∧
        (s.rate.state = .locked → exec (.remeasure .panel b) s =
          .next (State.reply { s with rate := { set with remeasure := some [] } } .panel ⟨0x42#8, .accepted, []⟩)) ∧
        (s.rate.state ≠ .locked → exec (.remeasure .panel b) s = .next (State.reply { s with rate := set } .panel ⟨0x42#8, .done, []⟩)))) ∧
    (∀ b : KeytrackBytes,
      let ok := 16 ≤ b.decay.toNat ∧ b.decay.toNat ≤ 4096 ∧ b.decay.toNat % 16 = 0 ∧ b.margin.toNat ≤ 63
      let set := { s.key with decay := b.decay.toNat, margin := b.margin.toNat, minTotal := b.minTotal.toNat }
      let done : Reply := ⟨0x44#8, .done, bytes16 b.decay ++ [b.margin] ++ bytes16 b.minTotal⟩
      (¬ok → exec (.keytrack .panel b) s = .next (s.reply .panel ⟨0x44#8, .range, []⟩) ∧
        exec (.keytrackClear .panel b) s = .next (s.reply .panel ⟨0x44#8, .range, []⟩)) ∧
      (ok → exec (.keytrack .panel b) s = .next (State.reply { s with key := set } .panel done) ∧
        exec (.keytrackClear .panel b) s =
          .next (State.reply { s with key := { set with acc := List.replicate 12 0, counter := 0 } } .panel done))) ∧
    (∀ (e : Byte) (w : BitVec 16),
      let ok := e.toNat ≤ 1 ∧ 64 ≤ w.toNat ∧ w.toNat ≤ 2048 ∧ w.toNat % 64 = 0
      let done : Reply := ⟨0x45#8, .done, e :: bytes16 w⟩
      (¬ok → exec (.howl .panel e w) s = .next (s.reply .panel ⟨0x45#8, .range, []⟩)) ∧
      (ok → e = 0#8 → exec (.howl .panel e w) s =
        .next (State.reply { s with fault := { s.fault with howlEnable := true, window := w.toNat } } .panel done)) ∧
      (ok → e = 1#8 → exec (.howl .panel e w) s =
        .next (State.reply { s with fault := { s.fault with howlEnable := false, window := w.toNat, howlCounter := 0, dev0 := none } } .panel done))) ∧
    (∀ x : Byte,
      (1 ≤ x.toNat → x.toNat ≤ 64 → exec (.twowire .panel x) s =
        .next (State.reply { s with ports := { s.ports with timeout := x.toNat } } .panel ⟨0x46#8, .done, [x]⟩)) ∧
      (x.toNat = 0 ∨ 64 < x.toNat → exec (.twowire .panel x) s = .next (s.reply .panel ⟨0x46#8, .range, []⟩))))

/-- O19. With nothing due, LEARN from PANEL with a method byte other than 0 (PEAK) and 1 (AVERAGE) replies RANGE; else
outside LOCKED it replies NOTREADY; else with a learn in progress it replies BUSY; none of these changes anything but
the PANEL reply slot. Otherwise a learn record with the method, count 0, smallest 63, largest 0 and sum 0 is created
and the reply is ACCEPTED. From STAGE and DESK it replies NOTPERMITTED and changes nothing else. LEARN_COMPLETE with a
learn due discards the record: with largest − smallest above 12 LEARNFAIL is set and the gate stands; otherwise the
gate becomes the smaller of 63 and largest + 3 (PEAK) or floor(sum / 64) + 6 (AVERAGE) and LEARNDONE is set. Nothing
else changes. With no learn due nothing changes at all, whatever the learn record, and one that is due without a
record clears its mark alone (the due mark is the model's choice, log entry 1). (R23, R25.) -/
def Obligations.LearnMeasuresTheGate : Prop :=
  (∀ (s : State) (method : Byte), s.Quiet →
    let replied := fun (code : ReplyCode) => { s with ports := { s.ports with psel := ⟨0x41#8, code, []⟩ } }
    (method ≠ 0#8 → method ≠ 1#8 → exec (.learn .panel method) s = .next (replied .range)) ∧
      (method = 0#8 ∨ method = 1#8 →
        (s.rate.state ≠ .locked → exec (.learn .panel method) s = .next (replied .notReady)) ∧
        (s.rate.state = .locked → s.tracker.learn ≠ none → exec (.learn .panel method) s = .next (replied .busy)) ∧
        (s.rate.state = .locked → s.tracker.learn = none → exec (.learn .panel method) s =
          .next { replied .accepted with tracker := { s.tracker with
            learn := some ⟨if method = 0#8 then .peak else .average, 0, 63, 0, 0⟩ } })) ∧
      exec (.learn .stage method) s = .next { s with ports := { s.ports with stage := ⟨0x41#8, .notPermitted, []⟩ } } ∧
      exec (.learn .desk method) s = .next { s with ports := { s.ports with dsel := ⟨0x41#8, .notPermitted, []⟩ } }) ∧
  ((∀ s : State, s.due.learn = false → exec .learnComplete s = .next s) ∧
  (∀ s : State, s.due.learn = true → s.tracker.learn = none → exec .learnComplete s = .next { s with due := { s.due with learn := false } }) ∧
  ∀ (s : State) (l : LearnRecord), s.tracker.learn = some l →
    (s.due.learn = true → 12 < l.largest - l.smallest →
      exec .learnComplete s = .next { s with
        due := { s.due with learn := false }
        tracker := { s.tracker with learn := none }
        fault := { s.fault with flags := s.fault.flags ||| 0x4000#16 } }) ∧
    (s.due.learn = true → l.largest - l.smallest ≤ 12 →
      exec .learnComplete s = .next { s with
        due := { s.due with learn := false }
        tracker := { s.tracker with learn := none, settings := { s.tracker.settings with
          gate := if l.method = .peak then min 63 (l.largest + 3) else min 63 (l.sum / 64 + 6) } }
        fault := { s.fault with flags := s.fault.flags ||| 0x2000#16 } }))

/-- O20. With nothing due, LOADSCALE from PANEL with slot above 7 or rule above 2 replies RANGE; else with an unused
member bit set or without member 0 it replies FORMAT; neither changes anything but the PANEL reply slot. Otherwise the
slot's member set and rule are replaced and the reply is DONE; a CONTEXT publication with changed table contents
follows exactly when the SCALE field names the slot (PublicationsResolveTheVoices says what it makes of the copy and
the voices), and nothing else changes. With nothing due, LOADSHAPE from PANEL with slot above 15 replies RANGE; else
with an unused member bit set, without member 0 or with member 0 alone it replies FORMAT; neither changes anything but
the PANEL reply slot. Otherwise the slot's member set is replaced and the reply is DONE; a CONTEXT publication with
changed table contents follows exactly when the CHORD field is a chord that names the slot
(PublicationsResolveTheVoices says what it makes of the copy and the voices), and nothing else changes. (R41, R42,
R44, R45, R169.) -/
def Obligations.LoadsReplaceScaleAndShapeSlots : Prop :=
  (∀ (s : State) (slot : Byte) (members : BitVec 16) (rule : Byte), s.Quiet →
    let inRange := slot.toNat ≤ 7 ∧ rule.toNat ≤ 2
    let formed := members.toNat < 4096 ∧ members.getLsbD 0 = true
    let r : ScaleRule := if rule = 0#8 then .parallel else if rule = 1#8 then .lower else .upper
    (¬inRange → exec (.loadscale .panel slot members rule) s = .next (s.reply .panel ⟨0x30#8, .range, []⟩)) ∧
      (inRange → ¬formed → exec (.loadscale .panel slot members rule) s = .next (s.reply .panel ⟨0x30#8, .format, []⟩)) ∧
      (inRange → formed →
        let u := { s with tables := { s.tables with scales := s.tables.scales.set slot.toNat ⟨members.setWidth 12, r⟩ } }
        let published := State.deliver u ⟨.context, s.ctx.published, ⟨false, false, false, false, true, 0#8⟩⟩
        exec (.loadscale .panel slot members rule) s =
          .next (State.reply (if s.ctx.scale.value.val = slot.toNat then published else u) .panel ⟨0x30#8, .done, []⟩))) ∧
  (∀ (s : State) (slot : Byte) (members : BitVec 16), s.Quiet →
    let formed := members.toNat < 4096 ∧ members.getLsbD 0 = true ∧ members ≠ 1#16
    let named := ∃ c, s.ctx.chord.value = some c ∧ c.shape.val = slot.toNat
    (15 < slot.toNat → exec (.loadshape .panel slot members) s = .next (s.reply .panel ⟨0x31#8, .range, []⟩)) ∧
      (slot.toNat ≤ 15 → ¬formed → exec (.loadshape .panel slot members) s = .next (s.reply .panel ⟨0x31#8, .format, []⟩)) ∧
      (slot.toNat ≤ 15 → formed →
        let u := { s with tables := { s.tables with shapes := s.tables.shapes.set slot.toNat (members.setWidth 12) } }
        let published := State.deliver u ⟨.context, s.ctx.published, ⟨false, false, false, false, true, 0#8⟩⟩
        (named → exec (.loadshape .panel slot members) s = .next (published.reply .panel ⟨0x31#8, .done, []⟩)) ∧
        (¬named → exec (.loadshape .panel slot members) s = .next (State.reply u .panel ⟨0x31#8, .done, []⟩))))

/-- O21. With nothing due, LOADPLAN from PANEL that fails a check of R47 replies RANGE and changes nothing else. One that
passes stores the record (an OFF amount as 0, a fallback only for CHORDAL) and replies DONE; on every voice bound to
the slot, or whose staged plan came from it, the record is staged, and it is the active plan at once, with the slot as
binding and nothing staged, when the adoption is IMMEDIATE or the voice is IDLE; a voice that meets neither condition
keeps its resolver record. An adoption at once resolves an enabled voice against the note reported, with the context
copy, giving its folded working note as target, 32·(target − note) as goal and the basis, with a goal that differs
from the goal before, or the first, taken by the renderer under the new plan as GoalsGlidesAndShifts says and an
unchanged goal not handed on; where there is no working note, no target and goal, a cleared has-target mark and no
glide. A voice that is not enabled, or without a reported note, loses target, goal and basis, with the same mark. The
has-target mark then stands for a target in every state in which the marks agree with the goals (the invariant
TargetsInRange). At the end every voice's sound condition is tested afresh, and no other renderer item moves. Nothing
changes but the library slot, the voices and the reply slot. A fallback mark is 0 for absent and 1 for present, and a
follow byte 0 for yes and 1 for no (log entry 6); another byte is open (log entry 4). (R46, R47, R48, R112, R113,
R116, R125, R126, R127, R130, R137.) -/
def Obligations.LoadplanStoresAndStages : Prop :=
  (readMark .loadplan 0#8 = false ∧ readMark .loadplan 1#8 = true ∧ readFollow 0#8 = true ∧ readFollow 1#8 = false) ∧
  ∀ (s : State) (slot : Byte) (b : PlanBytes) (adoption : Byte), s.Quiet →
    let x := b.amount.toInt
    let amount : Int := if b.mode = 0#8 then 0 else if b.mode = 4#8 then b.amount.toNat else x
    let mode : PlanMode := if b.mode = 0#8 then .off else if b.mode = 1#8 then .scalar else if b.mode = 2#8 then .chordal
      else if b.mode = 3#8 then .fixed else .drone
    let present := readMark .loadplan b.fallbackMark = true
    let ok := slot.toNat ≤ 15 ∧ b.mode.toNat ≤ 4 ∧ (b.mode = 1#8 → -7 ≤ x ∧ x ≤ 7 ∧ x ≠ 0) ∧ (b.mode = 2#8 → -4 ≤ x ∧ x ≤ 4) ∧
      (b.mode = 3#8 → -24 ≤ x ∧ x ≤ 24) ∧ (b.mode = 4#8 → b.amount.toNat ≤ 95) ∧ b.low.toNat ≤ b.high.toNat ∧ b.high.toNat ≤ 95 ∧
      b.glide.toNat ≤ 63 ∧ b.level.toNat ≤ 127 ∧
      (b.mode = 2#8 → present → -7 ≤ b.fallback.toInt ∧ b.fallback.toInt ≤ 7 ∧ b.fallback ≠ 0#8) ∧ adoption.toNat ≤ 1
    let plan : Plan := ⟨mode, amount, b.low.toNat, b.high.toNat, readFollow b.follow, b.glide.toNat, b.level.toNat,
      if b.mode = 2#8 ∧ present then some b.fallback.toInt else none⟩
    (¬ok → exec (.loadplan .panel slot b adoption) s = .next (s.reply .panel ⟨0x32#8, .range, []⟩)) ∧
      (ok → ∃ voices, exec (.loadplan .panel slot b adoption) s = .next (State.reply { s with
          tables := { s.tables with plans := s.tables.plans.set slot.toNat plan }, voices := voices } .panel ⟨0x32#8, .done, []⟩) ∧
        ∀ i : Fin 4, ∃ u,
          let v := s.voices.get i
          let w := voices.get i
          let staging : Staged := ⟨plan, Fin.ofNat 16 slot.toNat⟩
          let concerned := v.res.binding.val = slot.toNat ∨ ∃ p, v.res.staged = some p ∧ p.origin.val = slot.toNat
          let now := adoption = 1#8 ∨ v.ren.state = .idle
          s.Tests u w ∧ (¬concerned → u = v) ∧
          (concerned → ¬now → u = { v with res := { v.res with staged := some staging } }) ∧
          (concerned → now → v.Adopts s.surroundings i staging u ∧ (s.TargetsInRange → w.ren.hasTarget = w.res.target.isSome)))

/-- O22. With nothing due, BIND with a voice above 3, a slot above 15 or an adoption above 1 replies RANGE and changes
nothing else. Otherwise the named voice gets a staged copy of the slot as it stands, with the slot as origin, and
adopts it at once (plan and binding replaced, nothing staged) when the adoption is IMMEDIATE or the voice is IDLE; the
other voices' resolver records stand; the reply is DONE with the voice's binding and the origin of the plan still
staged, or a mark that none is. An adoption at once resolves an enabled voice against the note reported, with the
context copy, giving its folded working note as target, 32·(target − note) as goal and the basis, with a goal that
differs from the goal before, or the first, taken by the renderer under the new plan as GoalsGlidesAndShifts says and
an unchanged goal not handed on; where there is no working note, no target and goal, a cleared has-target mark and no
glide. A voice that is not enabled, or without a reported note, loses target, goal and basis, with the same mark. The
has-target mark then stands for a target in every state in which the marks agree with the goals (the invariant
TargetsInRange). At the end every voice's sound condition is tested afresh, and no other renderer item moves. Nothing
changes but the voices and the reply slot. (R111, R112, R113, R116, R125, R126, R127, R130, R137.) -/
def Obligations.BindStagesALibrarySlot : Prop :=
  ∀ (s : State) (src : Manual) (voice slot adoption : Byte), s.Quiet →
    let ok := voice.toNat ≤ 3 ∧ slot.toNat ≤ 15 ∧ adoption.toNat ≤ 1
    (¬ok → exec (.bind src voice slot adoption) s = .next (s.reply src ⟨0x33#8, .range, []⟩)) ∧
      (ok →
        let i := Fin.ofNat 4 voice.toNat
        let k := Fin.ofNat 16 slot.toNat
        let plan := s.tables.plans.getD slot.toNat planOff
        let v := s.voices.get i
        let now := adoption = 1#8 ∨ v.ren.state = .idle
        ∃ voices data, exec (.bind src voice slot adoption) s = .next (State.reply { s with voices := voices } src ⟨0x33#8, .done, data⟩) ∧
          (∀ j, j ≠ i → s.Tests (s.voices.get j) (voices.get j)) ∧
          ∃ u, s.Tests u (voices.get i) ∧
            (¬now → u = { v with res := { v.res with staged := some ⟨plan, k⟩ } } ∧
              data = [BitVec.ofNat 8 v.res.binding.val, 1#8, BitVec.ofNat 8 k.val]) ∧
            (now → v.Adopts s.surroundings i ⟨plan, k⟩ u ∧ (s.TargetsInRange → (voices.get i).ren.hasTarget = (voices.get i).res.target.isSome) ∧
              data = [BitVec.ofNat 8 k.val, 0#8, 0#8]))

/-- O23. With nothing due, READTABLE from any manual source with selector SCALE (0) and a slot up to 7 replies DONE with
the member set and the rule, with SHAPE (1) and a slot up to 15 DONE with the member set, with PLAN (2) and a slot up
to 15 DONE with the plan record; any other selector or slot replies RANGE. Nothing changes but the source's reply
slot. With nothing due, each of these commands from any manual source changes nothing but the source's reply slot, and
its data is the items that its rule lists, in that order: READCONTEXT value, owner, pin holder and shadow of KEY,
SCALE and CHORD, the switch word, the lock mask, hush and its holder, the line condition and chord usability;
READSTATUS the status record; READKEYTRK the accumulators, the total, the counter, the settings and the evaluation;
READVOICE the resolver's and the renderer's records of a voice 0 to 3, and otherwise RANGE with no data; READCUE
length, WRAP, cursor, counter, run state and entered condition with mark 0, and with mark 1 also the step's record for
steps 0 to 63, and otherwise RANGE with no data. Where no table prints a byte, the coding is the model's (log entry
6): an absent item is a zero presence byte and zeros, a READCUE with mark 0 sends nothing for a record, and a number
is sent most significant byte first. (R51, R74, R108, R128, R144, R157, R180.) -/
def Obligations.ReadsChangeOnlyTheReplySlot : Prop :=
  (∀ (s : State) (src : Manual) (table slot : Byte), s.Quiet →
    let replied := fun (code : ReplyCode) (data : List Byte) => Host.Outcome.next (s.reply src ⟨0x64#8, code, data⟩)
    let scale := s.tables.scales.getD slot.toNat ⟨0#12, .parallel⟩
    let shape := s.tables.shapes.getD slot.toNat 0#12
    let plan := s.tables.plans.getD slot.toNat planOff
    (table = 0#8 → slot.toNat ≤ 7 → exec (.readtable src table slot) s =
      replied .done [(scale.members.setWidth 16).extractLsb' 8 8, (scale.members.setWidth 16).extractLsb' 0 8,
        match scale.rule with | .parallel => 0#8 | .lower => 1#8 | .upper => 2#8]) ∧
    (table = 1#8 → slot.toNat ≤ 15 → exec (.readtable src table slot) s =
      replied .done [(shape.setWidth 16).extractLsb' 8 8, (shape.setWidth 16).extractLsb' 0 8]) ∧
    (table = 2#8 → slot.toNat ≤ 15 → exec (.readtable src table slot) s = replied .done
      ([match plan.mode with
        | .off => 0#8 | .scalar => 1#8 | .chordal => 2#8 | .fixed => 3#8 | .drone => 4#8, BitVec.ofInt 8 plan.amount, BitVec.ofNat 8 plan.low,
        BitVec.ofNat 8 plan.high, if plan.follow = true then 0#8 else 1#8, BitVec.ofNat 8 plan.glide, BitVec.ofNat 8 plan.level] ++
        match plan.fallback with
        | none => [0#8, 0#8]
        | some k => [1#8, BitVec.ofInt 8 k])) ∧
    (2 < table.toNat ∨ (table = 0#8 ∧ 7 < slot.toNat) ∨ (table ≠ 0#8 ∧ 15 < slot.toNat) →
      exec (.readtable src table slot) s = replied .range [])) ∧
  (∀ (s : State) (src : Manual), s.Quiet →
    let replied := fun (command : Byte) (code : ReplyCode) (data : List Byte) => Host.Outcome.next (s.reply src ⟨command, code, data⟩)
    let n8 := fun (n : Nat) => (BitVec.ofNat 8 n : Byte)
    let n16 := fun (n : Nat) => [n8 (n / 256), n8 n]
    let n24 := fun (n : Nat) => [n8 (n / 65536), n8 (n / 256), n8 n]
    let z8 := fun (x : Int) => (BitVec.ofInt 8 x : Byte)
    let z16 := fun (x : Int) => [z8 (x / 256), z8 x]
    let z24 := fun (x : Int) => [z8 (x / 65536), z8 (x / 256), z8 x]
    let mark := fun (b : Bool) => if b = true then 1#8 else (0#8 : Byte)
    let holder := fun (m : Option Manual) => match m with
      | none => (0#8 : Byte) | some .panel => 1#8 | some .stage => 2#8 | some .desk => 3#8
    let auto := fun (a : Auto) => match a with
      | .cue => (4#8 : Byte) | .chordline => 5#8 | .keytrk => 6#8
    let owner := fun (o : Owner) => match o with
      | .reset => (0#8 : Byte) | .source (.manual m) => holder (some m) | .source (.auto a) => auto a
    let bass := fun (b : Option (Fin 12)) => match b with
      | none => [0#8, 0#8] | some x => [1#8, n8 x.val]
    let chord := fun (v : Option Chord) => match v with
      | none => List.replicate 5 0#8 | some c => [1#8, n8 c.root.val, n8 c.shape.val] ++ bass c.bass
    let condition := fun (c : LineCondition) => match c with
      | .off => (0#8 : Byte) | .listening => 1#8 | .active => 2#8 | .stale => 3#8 | .lost => 4#8 | .broken => 5#8
    let key := s.ctx.key
    let scale := s.ctx.scale
    let chordField := s.ctx.chord
    let keyHead := [n8 key.value.val, owner key.owner, holder key.pin]
    let scaleHead := [n8 scale.value.val, owner scale.owner, holder scale.pin]
    let chordHead := chord chordField.value ++ [owner chordField.owner, holder chordField.pin]
    let hush := [mark s.ctx.hush.isSome, holder s.ctx.hush]
    let cursor := match s.cue.cursor with
      | none => [0#8, 0#8] | some k => [1#8, n8 k.val]
    let advance := fun (a : Advance) => match a with
      | .manual => [0#8, 0#8, 0#8] | .onsets n => 1#8 :: n16 n | .dwell n => 2#8 :: n16 n
    let context := keyHead ++ (match key.shadow with
        | none => [0#8, 0#8, 0#8] | some x => [1#8, n8 x.value.val, auto x.source]) ++
      scaleHead ++ (match scale.shadow with
        | none => [0#8, 0#8, 0#8] | some x => [1#8, n8 x.value.val, auto x.source]) ++
      chordHead ++ (match chordField.shadow with
        | none => List.replicate 7 0#8 | some x => 1#8 :: chord x.value ++ [auto x.source]) ++
      [s.ctx.switches, s.ctx.lockMask] ++ hush ++ [condition s.ctx.lineCond, mark s.ctx.usable]
    let status := (match s.fault.output with
        | .run => [0#8, 0#8, 0#8] | .degraded .rate => [1#8, 1#8, 0#8] | .degraded .howl => [1#8, 1#8, 1#8]
        | .recovering => [2#8, 0#8, 0#8] | .bypass => [3#8, 0#8, 0#8]) ++
      [mark s.rate.causeRate, mark s.fault.causeHowl] ++ hush ++ [match s.rate.state with
        | .unlocked => (0#8 : Byte) | .acquiring => 1#8 | .locked => 2#8 | .lost => 3#8] ++ n24 s.rate.nrate ++ (match s.decider.state with
        | .silent => [0#8, 0#8, 0#8] | .onset _ _ => [1#8, 0#8, 0#8] | .held N => [2#8, 1#8, n8 N] | .transition N _ _ => [3#8, 1#8, n8 N]
        | .releasing N _ => [4#8, 1#8, n8 N]) ++ [z8 s.decider.dev] ++
      keyHead ++ [mark key.shadow.isSome] ++ scaleHead ++ [mark scale.shadow.isSome] ++ chordHead ++ [mark chordField.shadow.isSome] ++
      [mark s.ctx.usable, s.ctx.switches, s.ctx.lockMask, condition s.line.cond, n8 s.queue.length] ++ cursor ++ [n8 s.tables.cueLength] ++
      n16 s.fault.flags.toNat
    let keytrk := s.key.acc.flatMap n16 ++ n24 s.key.acc.sum ++ n16 s.key.counter ++ n16 s.key.decay ++ [n8 s.key.margin] ++ n16 s.key.minTotal ++
      (match s.key.evaluation with
        | none => List.replicate 17 0#8
        | some e => [1#8, n8 e.current.val, n8 e.scale.val, n8 e.best.val] ++ z24 e.bestScore ++ z24 e.currentScore ++ n24 e.total ++ n24 e.margin ++
          [match e.outcome with
            | .same => (0#8 : Byte) | .lowTotal => 1#8 | .margin => 2#8 | .switchOff => 3#8 | .proposed => 4#8])
    let plan := fun (p : Plan) => [match p.mode with
        | .off => (0#8 : Byte) | .scalar => 1#8 | .chordal => 2#8 | .fixed => 3#8 | .drone => 4#8] ++
      [z8 p.amount, n8 p.low, n8 p.high, if p.follow = true then 0#8 else 1#8, n8 p.glide, n8 p.level] ++ (match p.fallback with
        | none => [0#8, 0#8] | some k => [1#8, z8 k])
    let shift := fun (x : Option Int) => match x with
      | none => [0#8, 0#8, 0#8] | some d => 1#8 :: z16 d
    let voice := fun (v : Voice) => [n8 v.res.binding.val] ++ plan v.res.plan ++ (match v.res.staged with
        | none => List.replicate 11 0#8 | some p => 1#8 :: plan p.plan ++ [n8 p.origin.val]) ++ (match v.res.target with
        | none => [0#8, 0#8] | some t => [1#8, n8 t]) ++ shift v.res.goal ++ (match v.res.basis with
        | none => [0#8, 0#8, 0#8]
        | some b => [1#8, match b.path with
            | .scalar => (0#8 : Byte) | .chordal => 1#8 | .fallback => 2#8 | .noChord => 3#8 | .fixed => 4#8 | .drone => 5#8 | .off => 6#8,
          match b.fold with
            | .none => (0#8 : Byte) | .octave => 1#8 | .edge => 2#8]) ++
      [match v.ren.state with
        | .idle => (0#8 : Byte) | .rising => 1#8 | .sounding => 2#8 | .falling => 3#8] ++ [n8 v.ren.fade, mark v.ren.hasTarget] ++
      shift v.ren.interval ++ (match v.ren.glide with
        | none => List.replicate 7 0#8 | some g => 1#8 :: z16 g.start ++ z16 g.goal ++ [n8 g.remaining, n8 g.length]) ++
      shift v.ren.requested ++ shift v.ren.pending ++ z16 v.ren.applied ++ n24 v.ren.ratio ++ [match s.renderer.grainMode with
        | .period => (0#8 : Byte) | .fixed => 1#8] ++ n16 s.renderer.grainLength
    let cue := [n8 s.tables.cueLength, if s.tables.wrap = true then 0#8 else 1#8] ++ cursor ++ n16 s.cue.counter ++
      [if s.cue.running = true then 0#8 else 1#8] ++ advance s.cue.entered
    let optional := fun (x : Option Nat) => match x with
      | none => [0#8, 0#8] | some k => [1#8, n8 k]
    let step := fun (c : CueStep) => optional (c.key.map Fin.val) ++ optional (c.scale.map Fin.val) ++ (match c.chord with
        | none => List.replicate 5 0#8 | some none => 1#8 :: List.replicate 4 0#8
        | some (some x) => [2#8, n8 x.root.val, n8 x.shape.val] ++ bass x.bass) ++ [c.setMask, c.clearMask] ++ advance c.advance ++
      [n8 c.bindings.length] ++ c.bindings.flatMap fun b => [n8 b.1.val, n8 b.2.val]
    exec (.readstatus src) s = replied 0x60#8 .done status ∧ exec (.readcontext src) s = replied 0x61#8 .done context ∧
      exec (.readkeytrk src) s = replied 0x65#8 .done keytrk ∧
      (∀ i : Byte, i.toNat ≤ 3 → exec (.readvoice src i) s = replied 0x62#8 .done (voice (s.voices.get (Fin.ofNat 4 i.toNat)))) ∧
      (∀ i : Byte, 3 < i.toNat → exec (.readvoice src i) s = replied 0x62#8 .range []) ∧
      (∀ k : Byte, exec (.readcue src 0#8 k) s = replied 0x63#8 .done cue) ∧
      (∀ k : Byte, k.toNat ≤ 63 →
        exec (.readcue src 1#8 k) s = replied 0x63#8 .done (cue ++ step (s.tables.cues.getD k.toNat ⟨none, none, none, 0#8, 0#8, [], .manual⟩))) ∧
      (∀ k : Byte, 63 < k.toNat → exec (.readcue src 1#8 k) s = replied 0x63#8 .range []))

/-- O24. With nothing due, SETKEY with a tonic above 11 or a pin request above 1 replies RANGE and changes nothing else.
Otherwise, when KEY is unpinned or its holder's rank is at most the source's, KEY takes the tonic with the source as
owner and no shadow; the pin is then held by the source when the field was pinned or PIN was asked, else absent; the
reply is DONE with the value, owner and holder. When a higher-ranked source holds the pin the reply is OUTRANKED with
the value, owner and holder as they stand. A changed value is published as CONTEXT, which moves the context copy and
the voices as PublicationsResolveTheVoices says; nothing else changes, and an unchanged value changes neither. With
nothing due, SETSCALE with a slot above 7 or a pin request above 1 replies RANGE, and else with an empty slot EMPTY;
neither changes anything else. Otherwise SCALE is arbitrated as SETKEY arbitrates KEY, with DONE or OUTRANKED and the
same data. A changed value is published as CONTEXT, which moves the context copy and the voices as
PublicationsResolveTheVoices says; nothing else changes, and an unchanged value changes neither. (R54, R56, R58,
R169.) -/
def Obligations.SetkeyAndSetscaleAreArbitrated : Prop :=
  (∀ (s : State) (src : Manual) (tonic pin : Byte), s.Quiet →
    let f := s.ctx.key
    let pass := f.pin = none ∨ ∃ y, f.pin = some y ∧ rank y ≤ rank src
    let holder := match f.pin with
      | none => if pin = 1#8 then some src else none
      | some y => some (if rank y ≤ rank src then src else y)
    let ok := tonic.toNat ≤ 11 ∧ pin.toNat ≤ 1
    (¬ok → exec (.setkey src tonic pin) s = .next (s.reply src ⟨0x10#8, .range, []⟩)) ∧
      (ok → ¬pass → exec (.setkey src tonic pin) s =
        .next (s.reply src ⟨0x10#8, .outranked, [BitVec.ofNat 8 f.value.val, f.owner.sourceCode, holderByte f.pin]⟩)) ∧
      (ok → pass →
        let u := { s with ctx := { s.ctx with key := ⟨Fin.ofNat 12 tonic.toNat, .source (.manual src), holder, none⟩ } }
        exec (.setkey src tonic pin) s =
            .next (State.reply (State.publishChanges u s.ctx false) src ⟨0x10#8, .done, [tonic, manualCode src, holderByte holder]⟩) ∧
          (f.value.val = tonic.toNat → State.publishChanges u s.ctx false = u))) ∧
  (∀ (s : State) (src : Manual) (slot pin : Byte), s.Quiet →
    let f := s.ctx.scale
    let pass := f.pin = none ∨ ∃ y, f.pin = some y ∧ rank y ≤ rank src
    let holder := match f.pin with
      | none => if pin = 1#8 then some src else none
      | some y => some (if rank y ≤ rank src then src else y)
    let ok := slot.toNat ≤ 7 ∧ pin.toNat ≤ 1
    let filled := (s.tables.scales.getD slot.toNat ⟨0#12, .parallel⟩).members ≠ 0#12
    (¬ok → exec (.setscale src slot pin) s = .next (s.reply src ⟨0x11#8, .range, []⟩)) ∧
      (ok → ¬filled → exec (.setscale src slot pin) s = .next (s.reply src ⟨0x11#8, .empty, []⟩)) ∧
      (ok → filled → ¬pass → exec (.setscale src slot pin) s =
        .next (s.reply src ⟨0x11#8, .outranked, [BitVec.ofNat 8 f.value.val, f.owner.sourceCode, holderByte f.pin]⟩)) ∧
      (ok → filled → pass →
        let u := { s with ctx := { s.ctx with scale := ⟨Fin.ofNat 8 slot.toNat, .source (.manual src), holder, none⟩ } }
        exec (.setscale src slot pin) s =
            .next (State.reply (State.publishChanges u s.ctx false) src ⟨0x11#8, .done, [slot, manualCode src, holderByte holder]⟩) ∧
          (f.value.val = slot.toNat → State.publishChanges u s.ctx false = u)))

/-- O25. With nothing due, SETCHORD with a kind or pin request above 1, or of kind CHORD with a root above 11, a shape
above 15 or a marked bass above 11, replies RANGE, and else of kind CHORD with an empty shape slot EMPTY; neither
changes anything else. Otherwise CHORD takes "none", or the chord with a bass equal to the root stored absent,
arbitrated as SETKEY arbitrates KEY, with DONE or OUTRANKED and the field's value, owner and holder. A change of value
or usability is published as CONTEXT, which moves the context copy and the voices as PublicationsResolveTheVoices
says, and nothing else changes. A bass mark is 0 for absent and 1 for present; another byte is open (log entry 4).
(R54, R56, R59, R169.) -/
def Obligations.SetchordWritesTheChord : Prop :=
  (readMark .setchord 0#8 = false ∧ readMark .setchord 1#8 = true) ∧
  ∀ (s : State) (src : Manual) (pin : Byte) (b : ChordBytes), s.Quiet →
    let f := s.ctx.chord
    let pass := f.pin = none ∨ ∃ y, f.pin = some y ∧ rank y ≤ rank src
    let holder := match f.pin with
      | none => if pin = 1#8 then some src else none
      | some y => some (if rank y ≤ rank src then src else y)
    let marked := readMark .setchord b.bassMark = true
    let ok := pin.toNat ≤ 1 ∧ b.kind.toNat ≤ 1 ∧
      (b.kind = 1#8 → b.root.toNat ≤ 11 ∧ b.shape.toNat ≤ 15 ∧ (marked → b.bass.toNat ≤ 11))
    let filled := b.kind = 1#8 → s.tables.shapes.getD b.shape.toNat 0#12 ≠ 0#12
    let value : Option Chord := if b.kind = 1#8 then
        some ⟨Fin.ofNat 12 b.root.toNat, Fin.ofNat 16 b.shape.toNat,
          if marked ∧ b.bass ≠ b.root then some (Fin.ofNat 12 b.bass.toNat) else none⟩
      else none
    (¬ok → exec (.setchord src pin b) s = .next (s.reply src ⟨0x12#8, .range, []⟩)) ∧
      (ok → ¬filled → exec (.setchord src pin b) s = .next (s.reply src ⟨0x12#8, .empty, []⟩)) ∧
      (ok → filled → ¬pass → exec (.setchord src pin b) s =
        .next (s.reply src ⟨0x12#8, .outranked, chordBytes f.value ++ [f.owner.sourceCode, holderByte f.pin]⟩)) ∧
      (ok → filled → pass → exec (.setchord src pin b) s = .next (State.reply (State.publishChanges { s with
          ctx := { s.ctx with chord := ⟨value, .source (.manual src), holder, none⟩ } } s.ctx false)
          src ⟨0x12#8, .done, chordBytes value ++ [manualCode src, holderByte holder]⟩))

/-- O26. A field write from an automatic source to a pinned KEY, SCALE or CHORD stores (value, source) as the field's
shadow, in place of any shadow before it and even when the value is the one in force, and changes nothing else of the
state: not the value, the owner, the pin or a flag. To an unpinned field it gives the value and the source as owner,
with no pin and no shadow, and sets KEYADOPT exactly when the field is KEY and the source KEYTRK. With nothing due,
UNPIN of KEY (0), SCALE (1) or CHORD (2): an unpinned field is unchanged with DONE and the same data; a field pinned
by a higher-ranked source is unchanged with OUTRANKED; otherwise the pin is removed, a shadow becomes the value with
its source as owner, and the reply is DONE with the field's value, owner and no holder (log entry 19 for the field
found unpinned); a KEYTRK shadow applied to KEY sets KEYADOPT. Another selector replies RANGE. A change of value or
usability is published as CONTEXT, which moves the context copy and the voices as PublicationsResolveTheVoices says,
and nothing else changes. (R52, R54, R55, R60, R61, R169.) -/
def Obligations.AutomaticWritesMeetThePin : Prop :=
  (∀ (s : State) (a : Auto),
    (∀ y, s.ctx.key.pin = some y → ∀ v, s.autoKey v a = { s with ctx := { s.ctx with key := { s.ctx.key with shadow := some ⟨v, a⟩ } } }) ∧
      (∀ y, s.ctx.scale.pin = some y → ∀ v,
        s.autoScale v a = { s with ctx := { s.ctx with scale := { s.ctx.scale with shadow := some ⟨v, a⟩ } } }) ∧
      (∀ y, s.ctx.chord.pin = some y → ∀ v,
        s.autoChord v a = { s with ctx := { s.ctx with chord := { s.ctx.chord with shadow := some ⟨v, a⟩ } } }) ∧
      (s.ctx.key.pin = none → ∀ v, s.autoKey v a = { s with
        ctx := { s.ctx with key := ⟨v, .source (.auto a), none, none⟩ }
        fault := { s.fault with flags := if a = .keytrk then s.fault.flags ||| 0x80#16 else s.fault.flags } }) ∧
      (s.ctx.scale.pin = none → ∀ v, s.autoScale v a = { s with ctx := { s.ctx with scale := ⟨v, .source (.auto a), none, none⟩ } }) ∧
      (s.ctx.chord.pin = none → ∀ v, s.autoChord v a = { s with ctx := { s.ctx with chord := ⟨v, .source (.auto a), none, none⟩ } })) ∧
  (∀ (s : State) (src : Manual) (field : Byte), s.Quiet →
    (2 < field.toNat → exec (.unpin src field) s = .next (s.reply src ⟨0x13#8, .range, []⟩)) ∧
    (field = 0#8 →
      let f := s.ctx.key
      (f.pin = none → exec (.unpin src field) s = .next (s.reply src ⟨0x13#8, .done, [BitVec.ofNat 8 f.value.val, f.owner.sourceCode, 0#8]⟩)) ∧
      (∀ y, f.pin = some y → rank src < rank y → exec (.unpin src field) s = .next (s.reply src ⟨0x13#8, .outranked, []⟩)) ∧
      (∀ y, f.pin = some y → rank y ≤ rank src → exec (.unpin src field) s =
        let v := match f.shadow with | some x => x.value | none => f.value
        let o := match f.shadow with | some x => Owner.source (.auto x.source) | none => f.owner
        let flags := match f.shadow with
          | some ⟨_, .keytrk⟩ => s.fault.flags ||| 0x80#16
          | _ => s.fault.flags
        .next (State.reply (State.publishChanges { s with
          ctx := { s.ctx with key := ⟨v, o, none, none⟩ }, fault := { s.fault with flags := flags } } s.ctx false) src ⟨0x13#8, .done, [BitVec.ofNat 8 v.val, o.sourceCode, 0#8]⟩))) ∧
    (field = 1#8 →
      let f := s.ctx.scale
      (f.pin = none → exec (.unpin src field) s = .next (s.reply src ⟨0x13#8, .done, [BitVec.ofNat 8 f.value.val, f.owner.sourceCode, 0#8]⟩)) ∧
      (∀ y, f.pin = some y → rank src < rank y → exec (.unpin src field) s = .next (s.reply src ⟨0x13#8, .outranked, []⟩)) ∧
      (∀ y, f.pin = some y → rank y ≤ rank src → exec (.unpin src field) s =
        let v := match f.shadow with | some x => x.value | none => f.value
        let o := match f.shadow with | some x => Owner.source (.auto x.source) | none => f.owner
        .next (State.reply (State.publishChanges { s with ctx := { s.ctx with scale := ⟨v, o, none, none⟩ } } s.ctx false)
          src ⟨0x13#8, .done, [BitVec.ofNat 8 v.val, o.sourceCode, 0#8]⟩))) ∧
    (field = 2#8 →
      let f := s.ctx.chord
      (f.pin = none → exec (.unpin src field) s = .next (s.reply src ⟨0x13#8, .done, chordBytes f.value ++ [f.owner.sourceCode, 0#8]⟩)) ∧
      (∀ y, f.pin = some y → rank src < rank y → exec (.unpin src field) s = .next (s.reply src ⟨0x13#8, .outranked, []⟩)) ∧
      (∀ y, f.pin = some y → rank y ≤ rank src → exec (.unpin src field) s =
        let v := match f.shadow with | some x => x.value | none => f.value
        let o := match f.shadow with | some x => Owner.source (.auto x.source) | none => f.owner
        .next (State.reply (State.publishChanges { s with ctx := { s.ctx with chord := ⟨v, o, none, none⟩ } } s.ctx false)
          src ⟨0x13#8, .done, chordBytes v ++ [o.sourceCode, 0#8]⟩))))

/-- O27. With nothing due, a SWITCHES write from any manual source with form PUT, SET or CLEAR leaves each switch that is
not free (locked, and the source not DESK) as it is, and gives each free switch its bit of the argument (PUT), or sets
it when named (SET), or clears it when named (CLEAR); the reply is DONE with the switch word after and the masked set:
the switches not free that the write would have changed. The chord queue and a match's result are flushed when CHORD
goes from set to clear; a changed word is published as CONTEXT, which moves the context copy and the voices as
PublicationsResolveTheVoices says, and nothing else changes. A record with another form is refused with RANGE. The
rows SWITCHES_PUT, _SET and _CLEAR are the forms of one command (log entry 15). (R63, R66, R93, R97.) -/
def Obligations.SwitchesChangeFreeSwitches : Prop :=
  (∀ (s : State) (src : Manual) (arg : Byte), s.Quiet →
    let old := s.ctx.switches
    let locked := fun (i : Nat) => src ≠ .desk ∧ s.ctx.lockMask.getLsbD i = true
    let wanted := fun (form : Nat) (i : Nat) =>
      if form = 0 then arg.getLsbD i else if form = 1 then old.getLsbD i || arg.getLsbD i else old.getLsbD i && !arg.getLsbD i
    ∀ form c, (form, c) ∈ [(0, Instr.switchesPut src arg), (1, .switchesSet src arg), (2, .switchesClear src arg)] →
      ∃ word masked,
        let u := { s with
          ctx := { s.ctx with switches := word }
          queue := if old.getLsbD 5 = true ∧ word.getLsbD 5 = false then [] else s.queue
          matcher := if old.getLsbD 5 = true ∧ word.getLsbD 5 = false then s.matcher.map (fun m => { m with discarded := true }) else s.matcher }
        exec c s = .next (State.reply (State.publishChanges u s.ctx false) src ⟨0x14#8, .done, [word, masked]⟩) ∧
        (∀ i, i < 8 → locked i → word.getLsbD i = old.getLsbD i ∧ masked.getLsbD i = (wanted form i != old.getLsbD i)) ∧
        (∀ i, i < 8 → ¬locked i → word.getLsbD i = wanted form i ∧ masked.getLsbD i = false) ∧
        (word = old → State.publishChanges u s.ctx false = u)) ∧
  ∀ (src : Manual) (form arg : Byte), 2 < form.toNat → decodeRecord src 0x14#8 [form, arg] = .refused .range

/-- O28. With nothing due, LOCKSW from DESK replaces the lock mask, with no other change but the DESK reply slot, which
holds DONE and the new mask; from PANEL or STAGE it is refused with NOTPERMITTED and changes nothing else. From every
state, a command that can carry no SWITCHES of DESK and no RESTART, and is not power-on, leaves every switch that was
in the lock mask with its value: cue steps, hops, note operations, chord line events and the PANEL and STAGE sources
cannot move it. RESTART from PANEL and power-on clear the mask. (R65.) -/
def Obligations.LockMaskGuardsSwitches : Prop :=
  (∀ (s : State) (mask : Byte), s.Quiet →
    exec (.locksw .desk mask) s = .next (State.reply { s with ctx := { s.ctx with lockMask := mask } } .desk ⟨0x15#8, .done, [mask]⟩) ∧
      exec (.locksw .panel mask) s = .next (s.reply .panel ⟨0x15#8, .notPermitted, []⟩) ∧
      exec (.locksw .stage mask) s = .next (s.reply .stage ⟨0x15#8, .notPermitted, []⟩)) ∧
  (∀ (s t : State) (c : Instr), c.mayChangeLocked = false → exec c s = .next t →
    ∀ i, s.ctx.lockMask.getLsbD i = true → t.ctx.switches.getLsbD i = s.ctx.switches.getLsbD i) ∧
  ∀ s : State, (∃ t, exec (.restart .panel) s = .next t ∧ t.ctx.lockMask = 0#8) ∧ ∀ sa, ∃ t, exec (.powerOn sa) s = .next t ∧ t.ctx.lockMask = 0#8

/-- O29. With nothing due: HUSH with hush absent makes the source its holder and sets every voice to IDLE with fade
position 0 and gain 0 at once, with DONE, taken; HUSH with hush present changes nothing, with DONE, masked, and the
holder. RESUME with hush absent replies DONE and changes nothing; with a holder of higher rank it replies OUTRANKED
and changes nothing; otherwise hush becomes absent, every voice's sound condition is tested afresh, and the reply is
DONE. The resolver records stand, and a voice's renderer record moves by the test alone: with the condition holding,
an IDLE voice becomes RISING with grain timer 0, no boundary due and a pending shift adopted, and a FALLING voice
becomes RISING, or SOUNDING at fade 8; with it failing, a RISING or SOUNDING voice becomes FALLING, or IDLE at fade 0;
any other voice stands, and no fade position moves. Nothing else changes. (R67, R68, R136, R137, R140, R169.) -/
def Obligations.HushSilencesAndResumeReleases : Prop :=
  ∀ (s : State) (src : Manual), s.Quiet →
    (s.ctx.hush = none → exec (.hush src) s = .next (State.reply { s with
        ctx := { s.ctx with hush := some src }
        voices := s.voices.map fun v => { v with ren := { v.ren with state := .idle, fade := 0, fadeOld := 0 } } } src
      ⟨0x16#8, .done, [0#8, manualCode src]⟩)) ∧
    (∀ y, s.ctx.hush = some y → exec (.hush src) s = .next (s.reply src ⟨0x16#8, .done, [1#8, manualCode y]⟩)) ∧
    (s.ctx.hush = none → exec (.resume src) s = .next (s.reply src ⟨0x17#8, .done, []⟩)) ∧
    (∀ y, s.ctx.hush = some y → rank src < rank y → exec (.resume src) s = .next (s.reply src ⟨0x17#8, .outranked, []⟩)) ∧
    (∀ y, s.ctx.hush = some y → rank y ≤ rank src →
      let sound := fun (r : RenderRecord) => r.enable = true ∧ r.hasTarget = true ∧ s.decider.state.note ≠ none ∧ s.fault.output = .run
      exec (.resume src) s = .next (State.reply { s with
          ctx := { s.ctx with hush := none }, voices := s.voices.map fun v => { v with ren := v.ren.retest (decide (sound v.ren)) } } src
        ⟨0x17#8, .done, []⟩)) ∧
    ∀ r : RenderRecord,
      let adopted := match r.pending with
        | some d => { r with applied := d, ratio := ratioCode d, pending := none }
        | none => r
      (r.state = .idle → r.retest true = { adopted with state := .rising, timer := 0, boundaryDue := false }) ∧
      (r.state = .falling → r.retest true = { r with state := if r.fade = 8 then .sounding else .rising }) ∧
      (r.state = .rising ∨ r.state = .sounding → r.retest true = r ∧ r.retest false = { r with state := if r.fade = 0 then .idle else .falling }) ∧
      (r.state = .idle ∨ r.state = .falling → r.retest false = r)

/-- O30. SETTLE_COMPLETE with a note-on or note-change to n due and no key proposal waiting (DecayEventEvaluatesAndHalves
says what a waiting one does): an ONSET entry at the head of the chord queue is removed and its value written to CHORD
as CHORDLINE, applied when unpinned and a shadow when pinned; with any other head, or none, the queue stands, unless a
cue step that is entered clears the CHORD switch, which empties it. When the entered condition is not ONSETS, or the
counter is stopped, or there is no cursor, the context changes by that write alone and the cue unit, the flags, the
switches and the tables stand. When it is ONSETS n0 with the list running: below n0 the count rises by 1 and the
context changes by that write alone; otherwise the list enters the next step, or step 0 at the end under WRAP, with
CUEADV, the cursor on it, a count of 1 if its condition is ONSETS, else 0, the context of R149 made from the context
after the head's write, and its bindings adopted by the note's publication; at the end without WRAP the counter stops
with CUEEND and the context changes by that write alone. Then the note is published with the context as it stands:
each voice, with the entered step's last staging for it held on it, is adopted, resolved, re-aimed or left at the
NOTE-ON or NOTE-CHANGE publication with the due note, as PublicationsResolveTheVoices says; every staged plan is
adopted, and no note event is due. With no note start due nothing changes (the due mark is the model's choice, log
entry 1). (R54, R55, R66, R71, R96, R97, R112, R113, R114, R149, R153, R155.) -/
def Obligations.NoteStartIsOneOperation : Prop :=
  (∀ s : State, (∀ n, s.due.note ≠ some (.noteOn n)) → (∀ old n, s.due.note ≠ some (.noteChange old n)) → exec .settleComplete s = .next s) ∧
  ∀ (s : State) (n : Nat), (s.due.note = some (.noteOn n) ∨ ∃ old, s.due.note = some (.noteChange old n)) → s.due.proposal = none →
    let head : Option (Option Chord) := match s.queue with
      | ⟨v, .onset⟩ :: _ => some v
      | _ => none
    let chord := match head with
      | some v => match s.ctx.chord.pin with
        | none => ⟨v, .source (.auto .chordline), none, none⟩
        | some _ => { s.ctx.chord with shadow := some ⟨v, .chordline⟩ }
      | none => s.ctx.chord
    let taken := { s.ctx with chord := chord }
    let adopted := fun (t : State) (i : Fin 4) (p : Staged) => (t.voices.get i).res.plan = p.plan ∧ (t.voices.get i).res.binding = p.origin
    let resolved := fun (t : State) (bindings : List (Fin 4 × Fin 16)) => ∀ i : Fin 4,
      let v := s.voices.get i
      let staged := match bindings.reverse.find? (fun b => b.1 = i) with
        | some b => some ⟨s.tables.plans.getD b.2.val planOff, b.2⟩
        | none => v.res.staged
      let kind := match s.due.note with
        | some (.noteChange old m) => PublicationKind.noteChange old m
        | _ => .noteOn n
      t.VoiceTakes ⟨kind, t.ctx.published, s.ctx.noteChanges taken t.ctx⟩ i { v with res := { v.res with staged := staged } } (t.voices.get i)
    let asStaged := fun (t : State) (i : Fin 4) => ∀ p, (s.voices.get i).res.staged = some p → adopted t i p
    ∃ t, exec .settleComplete s = .next t ∧ t.due = { s.due with note := none } ∧ t.copy = t.ctx.published ∧
      (∀ i, (t.voices.get i).res.staged = none) ∧
      t.queue = (if switchSet s.ctx.switches .chord = true ∧ switchSet t.ctx.switches .chord = false then []
        else if head.isSome then s.queue.tail else s.queue) ∧
      ((∀ k, s.cue.entered ≠ .onsets k) ∨ s.cue.running = false ∨ s.cue.cursor = none → t.cue = s.cue ∧ t.ctx = taken ∧
        t = { s with queue := t.queue, ctx := t.ctx, due := t.due, copy := t.copy, voices := t.voices } ∧ resolved t [] ∧ ∀ i, asStaged t i) ∧
      (∀ k i, s.cue.entered = .onsets k → s.cue.running = true → s.cue.cursor = some i →
        (s.cue.counter < k → t.cue = { s.cue with counter := s.cue.counter + 1 } ∧ t.ctx = taken ∧ t.fault = s.fault ∧ resolved t [] ∧ ∀ i, asStaged t i) ∧
        (k ≤ s.cue.counter →
          (∀ j : Fin 64, (j.val = i.val + 1 ∧ j.val < s.tables.cueLength) ∨ (s.tables.cueLength ≤ i.val + 1 ∧ s.tables.wrap = true ∧ j = 0) →
            let step := s.tables.cues.getD j.val cueStepEmpty
            t.cue = ⟨some j, match step.advance with | .onsets _ => 1 | _ => 0, true, step.advance⟩ ∧ t.fault = (s.raise .cueAdv).fault ∧
              taken.Stepped t.ctx step ∧ resolved t step.bindings ∧
              ((step.bindings.map Prod.fst).Nodup → ∀ b ∈ step.bindings, adopted t b.1 ⟨s.tables.plans.getD b.2.val planOff, b.2⟩) ∧
              ∀ i, i ∉ step.bindings.map Prod.fst → asStaged t i) ∧
          (s.tables.cueLength ≤ i.val + 1 → s.tables.wrap = false →
            t.cue = { s.cue with running := false } ∧ t.fault = (s.raise .cueEnd).fault ∧ t.ctx = taken ∧ resolved t [] ∧ ∀ i, asStaged t i))) ∧
      t.decider = s.decider ∧ t.tables = s.tables ∧ t.asp = s.asp ∧ t.rate = s.rate ∧ t.line = s.line ∧ t.key = s.key ∧ t.ports = s.ports

/-- O31. RELEASE_COMPLETE with a note-off due: a PHRASE entry at the head of the chord queue is removed and its value
written to CHORD as CHORDLINE (applied when unpinned, a shadow when pinned); with any other head, or an empty queue,
no entry is taken; then the note-off is published with the context as it stands, and no note event is due. No voice's
resolver record changes; each voice's copied enable becomes its switch and its sound condition is tested afresh; and
nothing else changes but the queue, CHORD and the context copy. With no note-off due nothing changes (the due mark is
the model's choice, log entry 1). (R54, R55, R72, R96, R137.) -/
def Obligations.NoteOffIsOneOperation : Prop :=
  (∀ (s : State) (n : Nat), s.due.note = some (.noteOff n) →
    let head : Option (Option Chord) := match s.queue with
      | ⟨v, .phrase⟩ :: _ => some v
      | _ => none
    let chord := match head with
      | some v => match s.ctx.chord.pin with
        | none => ⟨v, .source (.auto .chordline), none, none⟩
        | some _ => { s.ctx.chord with shadow := some ⟨v, .chordline⟩ }
      | none => s.ctx.chord
    ∃ t, exec .releaseComplete s = .next t ∧
      t = { s with queue := if head.isSome then s.queue.tail else s.queue
                   ctx := { s.ctx with chord := chord }, due := { s.due with note := none }, copy := t.copy, voices := t.voices } ∧
      t.copy = t.ctx.published ∧
      ∀ i : Fin 4,
        let r := { (s.voices.get i).ren with enable := switchSet s.ctx.switches (.enable i) }
        let sound := r.enable = true ∧ r.hasTarget = true ∧ s.decider.state.note ≠ none ∧ s.fault.output = .run ∧ s.ctx.hush = none
        t.voices.get i = ⟨(s.voices.get i).res, r.retest (decide sound)⟩) ∧
  ∀ s : State, (∀ n, s.due.note ≠ some (.noteOff n)) → exec .releaseComplete s = .next s

/-- O32. With nothing due: CHARACTER and FALSE_START change nothing while the line is disabled; a start bit whose majority
is high only sets NOISE when its samples disagree and leaves the receiver waiting for the next falling edge, and
FALSE_START does the same. With the line enabled, the start bit low and fewer than two characters in the FIFO, NOISE
is set when the samples of any bit disagree, the receiver then waits for CLIN high after a framing error and for an
edge otherwise, a pending gap mark passes to the character, which joins the FIFO as its newest, and the assembler
takes the waiting characters, oldest first: MATCHING leaves them in the FIFO; in HUNT a marker of 0 is ignored, a
marked character with a framing or parity error sets FRAMEDROP, and a header with a kind outside 1 to 5 or a count
above 8 sets FRAMEDROP, one with a count of 1 to 8 enters FRAME, and one with count 0 completes the frame; in FRAME a
character with a gap mark is handled as in HUNT, one with an error sets FRAMEDROP and returns to HUNT, a marked one
sets FRAMEDROP and is handled as in HUNT, and a data character joins the frame and completes it at the count. With two
characters in the FIFO the character is lost, OVERRUN is set and the gap mark is pending. Nothing else changes. That
NOISE is set by the CHARACTER or FALSE_START that carries the samples is the model's choice (log entry 27: R75 names
no moment). (R75, R76, R77, R82, R83, R91.) -/
def Obligations.CharactersReachTheAssembler : Prop :=
  ∀ (s : State) (s1 s2 s3 : BitVec 12), s.Quiet →
    let b := (s1 &&& s2) ||| (s1 &&& s3) ||| (s2 &&& s3)
    let p := s.line.settings.parity
    let n := if p = .none then 11 else 12
    let stop := b.getLsbD (n - 1)
    let ones := (List.range' 1 10).countP fun i => b.getLsbD i
    let wrong := decide ((p = .even ∧ ones % 2 = 1) ∨ (p = .odd ∧ ones % 2 = 0))
    let noisy := fun (k : Nat) => decide (∃ i, i < k ∧ (s1.getLsbD i ≠ s2.getLsbD i ∨ s1.getLsbD i ≠ s3.getLsbD i))
    let run := exec (.character s1 s2 s3) s
    let heard := s.raiseIf (noisy n) .noise
    let waits := if stop then RxWait.edge else .high
    let c : LineChar := ⟨b.extractLsb' 1 8, b.getLsbD 9, !stop, wrong, s.line.gapPending⟩
    let waiting := s.line.fifo ++ [c]
    (s.line.settings.enable = false → run = .next s ∧ ∀ x y z, exec (.falseStart x y z) s = .next s) ∧
    (s.line.settings.enable = true → b.getLsbD 0 = true →
      run = .next { s.raiseIf (noisy 1) .noise with line := { s.line with wait := .edge } }) ∧
    (s.line.settings.enable = true → ∀ x y z, ((x && y) || (x && z) || (y && z)) = true →
      exec (.falseStart x y z) s = .next { s.raiseIf (x != y || x != z) .noise with line := { s.line with wait := .edge } }) ∧
    (s.line.settings.enable = true → b.getLsbD 0 = false →
      (s.line.fifo.length = 2 →
        run = .next (State.raise { heard with line := { s.line with wait := waits, gapPending := true } } .overrun)) ∧
      (s.line.fifo.length < 2 → ∃ t, run = .next t ∧
        State.TakesWaiting waiting { heard with line := { s.line with wait := waits, gapPending := false, fifo := waiting } } t))

/-- O33. A frame is valid when: CHORD has 3 or 4 values, root at most 11, shape slot at most 15 and non-empty, apply-at at
most 2, and a fourth, the bass, at most 11; NOTES has apply-at at most 2 and 1 to 7 notes of at most 127; KEY has two
values, tonic at most 11 and scale slot at most 7 and non-empty; CLEAR has apply-at at most 2 alone; ALIVE has no
value. A complete frame that is not valid only sets FRAMEDROP and returns the assembler to HUNT. With the line
enabled, a frame that passes sets the silence counter to 0, the frame-seen mark, no broken mark and condition ACTIVE,
and the context unit takes a changed condition, with a CONTEXT publication where the chord's usability changes; with
CHORD clear nothing else changes. What a frame writes has a CONTEXT publication of its own where it changes the
context (two publications, log entry 20); PublicationsResolveTheVoices says what one makes of the copy and the voices.
Beside that, nothing changes but what follows. With CHORD set: a CHORD frame (a bass equal to the root stored absent)
or a CLEAR frame with apply-at NOW empties the queue, discards the result of a match and writes CHORD as CHORDLINE;
with ONSET or PHRASE its entry joins the queue's tail, a queue of 4 first losing its head with QUEUESLIP, and CHORD
stands; a KEY frame writes KEY and SCALE, each arbitrated on its own, and leaves the queue; an ALIVE frame does no
more; a NOTES frame of 1 to 7 notes begins a match with the shapes as they stand and the assembler in MATCHING. (R84,
R85, R89, R91, R95, R97, Table 5.3.) -/
def Obligations.ValidFramesAct : Prop :=
  ∀ (s : State), s.line.settings.enable = true →
    let valid := fun (k : FrameKind) (data : List Byte) =>
      let x := fun (i : Nat) => (data.getD i 0#8).toNat
      match k with
      | .chord => (data.length = 3 ∨ (data.length = 4 ∧ x 3 ≤ 11)) ∧ x 0 ≤ 11 ∧ x 1 ≤ 15 ∧ s.tables.shapes.getD (x 1) 0#12 ≠ 0#12 ∧ x 2 ≤ 2
      | .notes => 2 ≤ data.length ∧ data.length ≤ 8 ∧ x 0 ≤ 2 ∧ ∀ b ∈ data.tail, b.toNat ≤ 127
      | .key => data.length = 2 ∧ x 0 ≤ 11 ∧ x 1 ≤ 7 ∧ (s.tables.scales.getD (x 1) ⟨0#12, .parallel⟩).members ≠ 0#12
      | .clear => data.length = 1 ∧ x 0 ≤ 2
      | .alive => data = []
    (∀ k data, ¬valid k data →
      s.completeFrame k data = State.raise { s with line := { s.line with assembler := .hunt } } .frameDrop) ∧
    let entered := { s.line with assembler := .hunt, silence := 0, frameSeen := true, broken := false, cond := LineCondition.active }
    let u := if s.line.cond = .active then { s with line := entered }
      else State.publishChanges { s with line := entered, ctx := { s.ctx with lineCond := .active } } s.ctx false
    (u.ctx.key = s.ctx.key ∧ u.ctx.scale = s.ctx.scale ∧ u.ctx.chord = s.ctx.chord ∧ u.ctx.switches = s.ctx.switches ∧ u.line = entered ∧
      u.queue = s.queue ∧ u.matcher = s.matcher ∧ u.fault = s.fault ∧ (s.ctx.lineCond = s.line.cond → u.ctx.lineCond = .active)) ∧
    (switchSet s.ctx.switches .chord = false → ∀ k data, valid k data → s.completeFrame k data = u) ∧
    (switchSet s.ctx.switches .chord = true →
      (∀ value data at', at' ∈ [(0#8, ApplyAt.now), (1#8, .onset), (2#8, .phrase)] →
        (data = [at'.1] ∧ value = none) ∨
        (∃ (r : Fin 12) (x : Fin 16), s.tables.shapes.getD x.val 0#12 ≠ 0#12 ∧
          ((data = [BitVec.ofNat 8 r.val, BitVec.ofNat 8 x.val, at'.1] ∧ value = some ⟨r, x, none⟩) ∨
            ∃ y : Fin 12, data = [BitVec.ofNat 8 r.val, BitVec.ofNat 8 x.val, at'.1, BitVec.ofNat 8 y.val] ∧
              value = some ⟨r, x, if y = r then none else some y⟩)) →
        let t := s.completeFrame (if value = none then .clear else .chord) data
        (at'.2 = .now → t = State.publishChanges { u with
          queue := [], matcher := s.matcher.map (fun m => { m with discarded := true })
          ctx := { u.ctx with chord := (s.ctx.chord.write value (.auto .chordline) false).1 } } u.ctx false) ∧
        (∀ trigger, (at'.2, trigger) ∈ [(ApplyAt.onset, Trigger.onset), (.phrase, .phrase)] →
          (s.queue.length < 4 → t = { u with queue := s.queue ++ [⟨value, trigger⟩] }) ∧
          (4 ≤ s.queue.length → t = { u with queue := s.queue.tail ++ [⟨value, trigger⟩], fault := (s.raise .queueSlip).fault }))) ∧
      (∀ (x : Fin 12) (y : Fin 8), (s.tables.scales.getD y.val ⟨0#12, .parallel⟩).members ≠ 0#12 →
        s.completeFrame .key [BitVec.ofNat 8 x.val, BitVec.ofNat 8 y.val] = State.publishChanges { u with ctx := { u.ctx with
          key := (s.ctx.key.write x (.auto .chordline) false).1, scale := (s.ctx.scale.write y (.auto .chordline) false).1 } } u.ctx false) ∧
      s.completeFrame .alive [] = u ∧
      (∀ (notes : List Byte) at', at' ∈ [(0#8, ApplyAt.now), (1#8, .onset), (2#8, .phrase)] → notes ≠ [] → notes.length ≤ 7 →
        (∀ x ∈ notes, x.toNat ≤ 127) →
        s.completeFrame .notes (at'.1 :: notes) = { u with
          matcher := some ⟨at'.2, notes.map BitVec.toNat, s.tables.shapes, false⟩, line := { entered with assembler := .matching } }))

/-- O34. With nothing due and the line enabled, BREAK sets LINEBREAK and the broken mark and the condition is BROKEN; with
the line disabled it changes nothing. SILENCE_THRESHOLD, when due, derives the condition: OFF while disabled, else
BROKEN, LOST, STALE, ACTIVE or LISTENING, the first that holds. When either changes the condition to LOST or BROKEN
the queue is flushed with a match's result discarded, LINELOST is set for LOST, and under break action CLEAR a chord
owned by CHORDLINE becomes "none"; otherwise queue, match and CHORD stand. The context unit takes the changed
condition, with one CONTEXT publication where CHORD or its usability changes, which moves the context copy and the
voices as PublicationsResolveTheVoices says. Nothing else changes. The chord in force is usable exactly when CHORD is
not "none" and not all of these hold: STALEFALL set, CHORD owned by CHORDLINE, and the line condition STALE, LOST or
BROKEN; a publication carries the chord when it is usable, and else "none". That SILENCE_THRESHOLD acts on a due mark
of the hop is the model's choice (log entry 1). (R69, R70, R78, R86, R88, R89, R90.) -/
def Obligations.BreaksAndSilenceSetTheLineCondition : Prop :=
  (∀ c : Context,
    let aside := switchSet c.switches .stalefall = true ∧ c.chord.owner = .source (.auto .chordline) ∧
      (c.lineCond = .stale ∨ c.lineCond = .lost ∨ c.lineCond = .broken)
    (c.usable = true ↔ c.chord.value ≠ none ∧ ¬aside) ∧
      c.published = ⟨c.key.value, c.scale.value, if aside then none else c.chord.value, c.switches⟩) ∧
  (∀ s : State, s.Quiet → s.line.settings.enable = false → exec .lineBreak s = .next s) ∧
  (∀ s : State, s.due.silence = false → exec .silenceThreshold s = .next s) ∧
  ∀ (s u : State) (c : Instr) (cond : LineCondition), s.PinsOwned →
    (c = .lineBreak ∧ s.Quiet ∧ s.line.settings.enable = true ∧ cond = .broken ∧
        u = { s.raise .lineBreak with line := { s.line with broken := true } }) ∨
      (c = .silenceThreshold ∧ s.due.silence = true ∧ u = { s with due := { s.due with silence := false } } ∧
        cond = (if s.line.settings.enable = false then .off else if s.line.broken = true then .broken
          else if s.line.settings.lost ≠ 0 ∧ 8 * s.line.settings.lost ≤ s.line.silence then .lost
          else if s.line.settings.stale ≠ 0 ∧ 8 * s.line.settings.stale ≤ s.line.silence then .stale
          else if s.line.frameSeen = true then .active else .listening)) →
    (cond = s.line.cond → exec c s = .next u) ∧
    (cond ≠ s.line.cond →
      let severe := cond = .lost ∨ cond = .broken
      let cleared := severe ∧ s.line.settings.breakAction = .clear ∧ s.ctx.chord.owner = .source (.auto .chordline)
      exec c s = .next (State.publishChanges { u with
        line := { u.line with cond := cond }
        ctx := { s.ctx with lineCond := cond, chord := if cleared then ⟨none, .source (.auto .chordline), none, none⟩ else s.ctx.chord }
        queue := if severe then [] else s.queue
        matcher := if severe then s.matcher.map (fun m => { m with discarded := true }) else s.matcher
        fault := if cond = .lost then (u.raise .lineLost).fault else u.fault } s.ctx false))

/-- O35. For a frame's notes, with P the set of note values mod 12, lowest the class of the smallest value, and C the
shape's members moved up by the root mod 12: among pairs of a root in P and a non-empty shape slot, scored 4·|P ∩ C| −
3·|P \\ C| − 2·|C \\ P|, the pair that no other beats by score, then by root equal to lowest, then by lower slot, then
by lower root, gives the result: with a score of 8 or more its root, slot and a bass equal to lowest when that differs
from the root; below 8, or with no pair at all, the match is unrecognised. (R92.) -/
def Obligations.MatcherPicksTheBestPair : Prop :=
  ∀ (shapes : List PitchSet) (notes : List Nat) (low : Nat), low ∈ notes → (∀ x ∈ notes, low ≤ x) →
    let P : Finset Nat := (notes.map (· % 12)).toFinset
    let C := fun (r k : Nat) => ((Finset.range 12).filter fun x => (shapes.getD k 0#12).getLsbD x = true).image fun x => (x + r) % 12
    let score : Nat → Nat → Int := fun r k => 4 * ((P ∩ C r k).card : Int) - 3 * ((P \ C r k).card : Int) - 2 * ((C r k \ P).card : Int)
    let pair := fun (r k : Nat) => r < 12 ∧ k < 16 ∧ r ∈ P ∧ shapes.getD k 0#12 ≠ 0#12
    let first := fun (r k r' k' : Nat) => score r' k' < score r k ∨ (score r' k' = score r k ∧
      ((r = low % 12 ∧ r' ≠ low % 12) ∨ ((r = low % 12 ↔ r' = low % 12) ∧ (k < k' ∨ (k = k' ∧ r ≤ r')))))
    (∀ (r : Fin 12) (k : Fin 16), pair r.val k.val → (∀ r' k', pair r' k' → first r.val k.val r' k') →
      matchResult shapes notes =
        if 8 ≤ score r.val k.val then some ⟨r, k, if r.val = low % 12 then none else some (Fin.ofNat 12 low)⟩ else none) ∧
    ((∀ r k, ¬pair r k) → matchResult shapes notes = none)

/-- O36. With nothing due, MATCH_END with no match in progress changes nothing. With one, the match is over and the
assembler in HUNT, after: nothing, when a flush has discarded the result; UNRECOGNIZED alone, when no chord is
recognised; with apply-at NOW an emptied queue and the chord written to CHORD as CHORDLINE, with its CONTEXT
publication; with ONSET or PHRASE its entry at the queue's tail, a queue of 4 first losing its head with QUEUESLIP.
The assembler then takes the characters of the FIFO, oldest first, as it takes any, until none is left or one has
begun another match. (R54, R55, R77, R82, R83, R91, R93, R95.) -/
def Obligations.MatchEndHandlesTheResult : Prop :=
  ∀ s : State, s.Quiet → (s.matcher = none → exec .matchEnd s = .next s) ∧
    ∀ m, s.matcher = some m → s.line.fifo.length ≤ 2 →
      let u := { s with matcher := none, line := { s.line with assembler := .hunt } }
      let resumed := fun (v t : State) => exec .matchEnd s = .next t ∧ State.TakesWaiting s.line.fifo v t
      (m.discarded = true → ∃ t, resumed u t) ∧
      (m.discarded = false → matchResult m.shapes m.notes = none → ∃ t, resumed (u.raise .unrecognized) t) ∧
      (m.discarded = false → ∀ c, matchResult m.shapes m.notes = some c →
        (m.applyAt = .now → ∃ t, resumed (State.publishChanges { u with
          queue := [], ctx := { s.ctx with chord := (s.ctx.chord.write (some c) (.auto .chordline) false).1 } } s.ctx false) t) ∧
        (∀ trigger, (m.applyAt, trigger) ∈ [(ApplyAt.onset, Trigger.onset), (.phrase, .phrase)] →
          (s.queue.length < 4 → ∃ t, resumed { u with queue := s.queue ++ [⟨some c, trigger⟩] } t) ∧
          (4 ≤ s.queue.length → ∃ t, resumed { u.raise .queueSlip with queue := s.queue.tail ++ [⟨some c, trigger⟩] } t)))

/-- O37. With nothing due, CHORDLINE from PANEL with a baud above 3, a parity above 2, a break action above 1 or an enable
above 1 replies RANGE and changes nothing else; the forms LINE_ENABLE and LINE_DISABLE are CHORDLINE with enable on
(0) and off (1) (log entry 15). Otherwise the six settings are stored and the reply is DONE, and: from on to off the
FIFO and a pending gap mark are emptied, an assembler in FRAME returns to HUNT, the marks are cleared, the condition
is OFF, the queue is flushed with a match's result discarded, and CHORD stands; from off to on the silence counter is
0, the marks are clear, the receiver waits for CLIN high and the condition is LISTENING; while it stays on, a change
of baud or parity empties the FIFO and returns FRAME to HUNT, the counter and the marks stand, and the condition is
derived afresh by R88 with the new thresholds; where that changes it, the change is handed on: an entry to LOST or
BROKEN flushes the queue with a match's result discarded, an entry to LOST sets LINELOST, and under the new break
action CLEAR a chord owned by CHORDLINE becomes none (as R52 has it, unpinned); no other change of condition touches
them; while it stays off nothing else changes. Each changed condition reaches the context unit, with one CONTEXT
publication where CHORD or its usability changes, which moves the copy and the voices as PublicationsResolveTheVoices
says; no flag but LINELOST, and nothing else, changes. (R54, R79, R80, R88, R89, R90, R93, R97, R169.) -/
def Obligations.ChordlineSetsTheReceiver : Prop :=
  (∀ (s : State) (src : Manual) (b : LineBytes),
    exec (.lineEnable src b) s = exec (.chordline src b 0#8) s ∧ exec (.lineDisable src b) s = exec (.chordline src b 1#8) s) ∧
  ∀ (s : State) (b : LineBytes) (e : Byte), s.Quiet →
    let ok := b.baud.toNat ≤ 3 ∧ b.parity.toNat ≤ 2 ∧ b.breakAction.toNat ≤ 1 ∧ e.toNat ≤ 1
    (¬ok → exec (.chordline .panel b e) s = .next (s.reply .panel ⟨0x43#8, .range, []⟩)) ∧
    (ok →
      let new : LineSettings :=
        { baud := if b.baud = 0#8 then .b19200 else if b.baud = 1#8 then .b38400 else if b.baud = 2#8 then .b57600 else .b115200
          parity := if b.parity = 0#8 then .none else if b.parity = 1#8 then .even else .odd
          stale := b.stale.toNat, lost := b.lost.toNat, breakAction := if b.breakAction = 0#8 then .hold else .clear, enable := decide (e = 0#8) }
      let kept := { s.line with settings := new }
      let idle := match s.line.assembler with
        | .matching => Assembler.matching
        | _ => Assembler.hunt
      let restarted := { kept with wait := .high, fifo := [], gapPending := false, assembler := idle }
      let discarded := s.matcher.map fun m => { m with discarded := true }
      let answered := fun (t : State) => exec (.chordline .panel b e) s = .next (t.reply .panel ⟨0x43#8, .done, []⟩)
      let handed := fun (u : State) (c : LineCondition) => if c = s.line.cond then u
        else State.publishChanges { u with line := { u.line with cond := c }, ctx := { u.ctx with lineCond := c } } s.ctx false
      (s.line.settings.enable = true → new.enable = false →
        answered (handed { s with line := { restarted with frameSeen := false, broken := false }, queue := [], matcher := discarded } .off)) ∧
      (s.line.settings.enable = false → new.enable = true →
        answered (handed { s with line := { kept with wait := .high, silence := 0, frameSeen := false, broken := false } } .listening)) ∧
      (s.line.settings.enable = true → new.enable = true →
        let u := { s with line := if s.line.settings.baud ≠ new.baud ∨ s.line.settings.parity ≠ new.parity then restarted else kept }
        let cond : LineCondition := if s.line.broken = true then .broken
          else if new.lost ≠ 0 ∧ 8 * new.lost ≤ s.line.silence then .lost
          else if new.stale ≠ 0 ∧ 8 * new.stale ≤ s.line.silence then .stale
          else if s.line.frameSeen = true then .active else .listening
        (cond = s.line.cond → answered u) ∧
          (cond ≠ s.line.cond → s.PinsOwned →
            let severe := cond = .lost ∨ cond = .broken
            let cleared := severe ∧ new.breakAction = .clear ∧ s.ctx.chord.owner = .source (.auto .chordline)
            answered (State.publishChanges { u with
              line := { u.line with cond := cond }
              ctx := { s.ctx with
                lineCond := cond, chord := if cleared then ⟨none, .source (.auto .chordline), none, none⟩ else s.ctx.chord }
              queue := if severe then [] else s.queue
              matcher := if severe then discarded else s.matcher
              fault := if cond = .lost then (s.raise .lineLost).fault else s.fault } s.ctx false))) ∧
      (s.line.settings.enable = false → new.enable = false → answered { s with line := kept }))

/-- O38. DECAY_EVENT, when due: with t the KEY value, S the members of the SCALE slot, the total of the accumulators and
score(k) twice the sum over S above k less the total, the best tonic is t if none scores higher, else the lowest of
the highest; the outcome is SAME, LOWTOTAL, MARGIN, SWITCHOFF or PROPOSED, the first test of Table 6.2 that holds;
PROPOSED writes the best tonic to KEY as KEYTRK, setting KEYADOPT when KEY is unpinned; then every accumulator is
halved, rounded down, the counter is 0 and the evaluation record is replaced. A changed KEY is published as CONTEXT,
which moves the context copy and the voices as PublicationsResolveTheVoices says, and nothing else changes. Where a
note start or a DWELL expiry of the same hop is still due, either of which may enter a cue step, the proposal waits:
it is written to KEY after the last of them, arbitrated against the field as that one left it (R107; that it waits in
the due marks is the model's form, log entry 26). Not due, it changes nothing (the due mark is the model's choice, log
entry 1). A command that may write KEY or SCALE (an UNPIN, by its shadow, among them) and meets a due decay event
finds the evaluation made and the accumulators halved, and a proposal is written to KEY after it, arbitrated against
the field as the command left it; KEYTRACK, met first, stores its settings and leaves the event due exactly when the
counter has reached the new D, and with CLEAR cancels it (R107 allows each order, and this one is the model's, log
entry 26). An addition that would carry an accumulator above 65,535 first halves all twelve. (R54, R55, R100, R101,
R102, R103, R104, R105, R106, R107.) -/
def Obligations.DecayEventEvaluatesAndHalves : Prop :=
  (∀ s : State, s.due.decay = false → exec .decayEvent s = .next s) ∧
  (∀ (s : State) (best : Fin 12), s.due.decay = true →
    let t := s.ctx.key.value
    let members := (s.tables.scales.getD s.ctx.scale.value.val ⟨0#12, .parallel⟩).members
    let total := s.key.acc.sum
    let score : Fin 12 → Int := fun k =>
      2 * (((List.range 12).filter fun x => members.getLsbD x).map fun x => s.key.acc.getD ((k.val + x) % 12) 0).sum - (total : Int)
    (∀ k, score k ≤ score best) → (score t = score best → best = t) → (score t ≠ score best → ∀ k, k < best → score k < score best) →
    let margin := total * s.key.margin / 64
    let outcome : KeyOutcome :=
      if best = t then .same
      else if total < s.key.minTotal then .lowTotal
      else if score best - score t < margin then .margin
      else if s.ctx.switches.getLsbD 6 = false then .switchOff
      else .proposed
    let record : Evaluation := ⟨t, s.ctx.scale.value, best, score best, score t, total, margin, outcome⟩
    let key := if outcome = .proposed then (s.ctx.key.write best (.auto .keytrk) false).1 else s.ctx.key
    (s.due.StepMayFollow → exec .decayEvent s = .next { s with
      due := { s.due with decay := false, proposal := if outcome = .proposed then some best else none }
      key := { s.key with acc := s.key.acc.map (· / 2), counter := 0, evaluation := some record } }) ∧
    (¬s.due.StepMayFollow → exec .decayEvent s = .next (State.publishChanges { s with
      due := { s.due with decay := false, proposal := none }
      key := { s.key with acc := s.key.acc.map (· / 2), counter := 0, evaluation := some record }
      ctx := { s.ctx with key := key }
      fault := if outcome = .proposed ∧ s.ctx.key.pin = none then (s.raise .keyAdopt).fault else s.fault } s.ctx false))) ∧
  (∀ (s : State) (k : Fin 12) (c : Instr), s.due.proposal = some k →
    (c = .settleComplete ∧ ((∃ n, s.due.note = some (.noteOn n)) ∨ ∃ old n, s.due.note = some (.noteChange old n))) ∨
      (c = .dwellExpiry ∧ s.due.dwell = true) →
    ∃ u, exec c { s with due := { s.due with proposal := none } } = .next u ∧
      (u.due.StepMayFollow → exec c s = .next { u with due := { u.due with proposal := some k } }) ∧
      (¬u.due.StepMayFollow → exec c s = .next (State.publishChanges { u with
        ctx := { u.ctx with key := (u.ctx.key.write k (.auto .keytrk) false).1 }
        fault := if u.ctx.key.pin = none then (u.raise .keyAdopt).fault else u.fault } u.ctx false))) ∧
  (∀ (s : State) (c : Instr), s.due = { Due.nothing with decay := true } →
    ((∃ src a b, c = .setkey src a b ∨ c = .setscale src a b) ∨ (∃ src field, c = .unpin src field) ∨ (∃ src k m r, c = .loadscale src k m r) ∨
      (∃ src step, c = .cuenext src ∨ c = .cueprev src ∨ c = .cuegoto src step) ∨ (∃ x y z, c = .character x y z) ∨ c = .matchEnd) →
    ∃ e, exec .decayEvent s = .next e ∧
      let record := e.key.evaluation
      let judged := { s with due := Due.nothing, key := e.key }
      ∃ u, exec c judged = .next u ∧
        ((∀ x, record = some x → x.outcome ≠ .proposed) → exec c s = .next u) ∧
        ∀ x, record = some x → x.outcome = .proposed → exec c s = .next (State.publishChanges { u with
          ctx := { u.ctx with key := (u.ctx.key.write x.best (.auto .keytrk) false).1 }
          fault := if u.ctx.key.pin = none then (u.raise .keyAdopt).fault else u.fault } u.ctx false)) ∧
  (∀ (s : State) (b : KeytrackBytes), s.due = { Due.nothing with decay := true } →
    16 ≤ b.decay.toNat → b.decay.toNat ≤ 4096 → b.decay.toNat % 16 = 0 → b.margin.toNat ≤ 63 →
    let set := { s.key with decay := b.decay.toNat, margin := b.margin.toNat, minTotal := b.minTotal.toNat }
    let done : Reply := ⟨0x44#8, .done, bytes16 b.decay ++ [b.margin] ++ bytes16 b.minTotal⟩
    exec (.keytrack .panel b) s =
        .next (State.reply { s with key := set, due := { Due.nothing with decay := decide (b.decay.toNat ≤ s.key.counter) } } .panel done) ∧
      exec (.keytrackClear .panel b) s =
        .next (State.reply { s with key := { set with acc := List.replicate 12 0, counter := 0 }, due := Due.nothing } .panel done)) ∧
  ∀ (acc : List Nat) (x w : Nat), acc.length = 12 → x < 12 →
    (acc.getD x 0 + w ≤ 65535 → integrate acc x w = acc.set x (acc.getD x 0 + w)) ∧
      (65535 < acc.getD x 0 + w → integrate acc x w = (acc.map (· / 2)).set x (acc.getD x 0 / 2 + w))

/-- O39. SCALAR k, with the scale's member 0 present and k not 0: from the base note, which is N when N is a scale note,
else the highest scale note below N (PARALLEL, LOWER) or the lowest above it (UPPER), the |k|-th scale note strictly
above (k above 0) or below, plus for PARALLEL the distance from the base note to N. CHORDAL k on a shape with member
0: the |k|-th chord tone strictly above or below N; k = 0: the highest note at or below N − 12 with the bass's pitch
class, the root's when the bass is absent. Without a usable chord CHORDAL is its fallback as a SCALAR step, or no
target. FIXED d is N + d, DRONE n is n, OFF is no target. The path is named with each. For L ≤ H and any working note
T: a T inside L to H is kept, with fold NONE; otherwise, when L to H holds a note of T's pitch class, the fold gives
the lowest such note at or above L for a T below L and the highest at or below H for a T above H, with fold OCTAVE;
otherwise, with u the highest note of the class below L, the fold gives L when L − u ≤ u + 12 − H and H otherwise,
with fold EDGE. (R116, R119, R120, R121, R122, R123, R124, R125, R127.) -/
def Obligations.TargetsFollowModeAndRange : Prop :=
  ((∀ (slot : ScaleSlot) (tonic : Fin 12) (N : Nat) (k : Int), slot.members.getLsbD 0 = true → k ≠ 0 →
    let tone := fun x : Int => slot.members.getLsbD ((x - tonic.val) % 12).toNat
    ∃ B o : Int, tone B = true ∧
      ((tone N = true ∧ B = N ∧ o = 0) ∨
        (tone N = false ∧ slot.rule ≠ .upper ∧ B < N ∧ (∀ x : Int, B < x → x < N → tone x = false) ∧
          o = if slot.rule = .parallel then (N : Int) - B else 0) ∨
        (tone N = false ∧ slot.rule = .upper ∧ N < B ∧ (∀ x : Int, N < x → x < B → tone x = false) ∧ o = 0)) ∧
      let T := scalarNote slot tonic N k - o
      tone T = true ∧ (0 < k → B < T ∧ (((Finset.Ioc B T).filter fun x => tone x = true).card : Int) = k) ∧
        (k < 0 → T < B ∧ (((Finset.Ico T B).filter fun x => tone x = true).card : Int) = -k)) ∧
  (∀ (shapes : List PitchSet) (c : Chord) (N : Nat) (k : Int), (shapes.getD c.shape.val 0#12).getLsbD 0 = true →
    let tone := fun x : Int => (shapes.getD c.shape.val 0#12).getLsbD ((x - c.root.val) % 12).toNat
    let T := chordalNote shapes c N k
    (0 < k → N < T ∧ tone T = true ∧ (((Finset.Ioc (N : Int) T).filter fun x => tone x = true).card : Int) = k) ∧
      (k < 0 → T < N ∧ tone T = true ∧ (((Finset.Ico T (N : Int)).filter fun x => tone x = true).card : Int) = -k) ∧
      (k = 0 → T ≤ (N : Int) - 12 ∧ (N : Int) - 24 < T ∧ T % 12 = match c.bass with
        | some b => (b.val : Int)
        | none => c.root.val)) ∧
  ∀ (t : Tables) (copy : ContextCopy) (p : Plan) (N : Nat),
    let slot := t.scales.getD copy.scale.val ⟨0#12, .parallel⟩
    (p.mode = .scalar → workingNote t copy p N = (some (scalarNote slot copy.tonic N p.amount), .scalar)) ∧
    (∀ c, p.mode = .chordal → copy.chord = some c → workingNote t copy p N = (some (chordalNote t.shapes c N p.amount), .chordal)) ∧
    (∀ k, p.mode = .chordal → copy.chord = none → p.fallback = some k → workingNote t copy p N = (some (scalarNote slot copy.tonic N k), .fallback)) ∧
    (p.mode = .chordal → copy.chord = none → p.fallback = none → workingNote t copy p N = (none, .noChord)) ∧
    (p.mode = .fixed → workingNote t copy p N = (some (N + p.amount), .fixed)) ∧
    (p.mode = .drone → workingNote t copy p N = (some p.amount, .drone)) ∧ (p.mode = .off → workingNote t copy p N = (none, .off))) ∧
  (∀ L H T : Int, L ≤ H →
    (L ≤ T → T ≤ H → rangeFold L H T = (T, .none)) ∧
    (∀ u : Int, T < L → (u - T) % 12 = 0 → L ≤ u → u < L + 12 → u ≤ H → rangeFold L H T = (u, .octave)) ∧
    (∀ u : Int, H < T → (u - T) % 12 = 0 → u ≤ H → H - 12 < u → L ≤ u → rangeFold L H T = (u, .octave)) ∧
    (∀ u : Int, (u - T) % 12 = 0 → u < L → H < u + 12 →
      rangeFold L H T = if L - u ≤ u + 12 - H then (L, .edge) else (H, .edge)))

/-- O40. A due note-on, note-change or note-off (the model's due marks, log entry 1) is published with its notes; the list
of a note start has every change of the queue head and of the cue step, so CHORD when either changed it, and usability
judged on the result. A change of KEY, SCALE, CHORD, usability, table contents or switches is published with the list
of what changed, bit by bit for the switches; no change gives no CONTEXT publication. A publication makes the context
copy the context carried and handles each voice with the tables, that context, the note reported and dev; then the
voice's copied enable becomes its switch and its sound condition is tested afresh, whose decider term waits for a due
note-on (log entry 2); nothing else changes. At a note start a staged plan becomes the active plan with its origin as
binding, and an enabled voice is resolved and another loses its target; without one, an enabled voice is resolved
unless FREEZE is set, it has a target and no forced trigger is carried; a voice not resolved keeps its target, and its
goal becomes 32·(target − note). A CONTEXT publication resolves an enabled voice while a note is reported on a forced
trigger (its own enable set, or FREEZE cleared), or on an ordinary change (anything but a switch) with FREEZE clear or
no target, and else leaves it; a NOTE-OFF leaves it. A resolution gives the folded working note as target, 32·(target
− note) as goal, and the basis; no working note takes target and goal away. A goal so formed that differs from the
goal before, or the first, is taken by the renderer under the active plan with dev, as GoalsGlidesAndShifts says; an
unchanged goal is not handed on; a target lost by a resolution or an adoption clears the has-target mark and ends the
glide. Nothing else of the renderer moves. (R70, R71, R113, R114, R116, R117, R118, R126, R127, R129, R130, R137.) -/
def Obligations.PublicationsResolveTheVoices : Prop :=
  (∀ (s : State) (p : Publication), s.deliver p = { s with copy := p.context, voices := (s.deliver p).voices } ∧
    ∀ i, s.VoiceTakes p i (s.voices.get i) ((s.deliver p).voices.get i)) ∧
  (∀ s : State, (∀ n, s.due.note = some (.noteOn n) → s.takeNoteStart = s.noteStart (.noteOn n)) ∧
    (∀ m n, s.due.note = some (.noteChange m n) → s.takeNoteStart = s.noteStart (.noteChange m n)) ∧
    (∀ n, s.due.note = some (.noteOff n) → s.takeNoteOff = s.noteOff n) ∧
    (∀ k, ∃ u c, s.noteStart k = State.deliver u ⟨k, u.ctx.published, c⟩ ∧
      let headed := match s.queue with
        | ⟨v, .onset⟩ :: _ => if s.ctx.chord.pin = none then v else s.ctx.chord.value
        | _ => s.ctx.chord.value
      (c.key = true ↔ s.ctx.key.value ≠ u.ctx.key.value) ∧ (c.scale = true ↔ s.ctx.scale.value ≠ u.ctx.scale.value) ∧
        (c.chord = true ↔ s.ctx.chord.value ≠ headed ∨ headed ≠ u.ctx.chord.value) ∧ (c.usability = true ↔ s.ctx.usable ≠ u.ctx.usable) ∧
        c.table = false ∧ (∀ i, i < 8 → (c.switches.getLsbD i = true ↔ s.ctx.switches.getLsbD i ≠ u.ctx.switches.getLsbD i))) ∧
    (∀ n, ∃ u, s.noteOff n = State.deliver u ⟨.noteOff n, u.ctx.published, s.ctx.changes u.ctx false⟩) ∧
    ∀ (before : Context) (table : Bool),
      let c := before.changes s.ctx table
      (c.key = true ↔ before.key.value ≠ s.ctx.key.value) ∧ (c.scale = true ↔ before.scale.value ≠ s.ctx.scale.value) ∧
        (c.chord = true ↔ before.chord.value ≠ s.ctx.chord.value) ∧ (c.usability = true ↔ before.usable ≠ s.ctx.usable) ∧ c.table = table ∧
        (∀ i, i < 8 → (c.switches.getLsbD i = true ↔ before.switches.getLsbD i ≠ s.ctx.switches.getLsbD i)) ∧
        s.publishChanges before table =
          if c.key = true ∨ c.scale = true ∨ c.chord = true ∨ c.usability = true ∨ c.table = true ∨ c.switches ≠ 0#8 then
            s.deliver ⟨.context, s.ctx.published, c⟩
          else s) ∧
  ∀ (v : Voice) (e : Surroundings) (c : Changes) (i : Fin 4) (n old : Nat),
    let kept := fun (w : Voice) => w.res.plan = v.res.plan ∧ w.res.binding = v.res.binding ∧ w.res.staged = v.res.staged
    let enabled := switchSet e.copy.switches (.enable i) = true
    let forced := (c.switches.getLsbD i.val = true ∧ enabled) ∨ (c.switches.getLsbD 4 = true ∧ switchSet e.copy.switches .freeze = false)
    let ordinary := c.key = true ∨ c.scale = true ∨ c.chord = true ∨ c.usability = true ∨ c.table = true
    let heeds := switchSet e.copy.switches .freeze = false ∨ v.res.target = none
    let context := v.atPublication ⟨.context, e.copy, c⟩ { e with note := some n } i
    (∀ k, k = .noteOn n ∨ k = .noteChange old n →
      let start := v.atPublication ⟨k, e.copy, c⟩ { e with note := some n } i
      (∀ p, v.res.staged = some p → v.Adopts { e with note := some n } i p start) ∧
      (v.res.staged = none → enabled → forced ∨ heeds → kept start ∧ v.Resolves e v.res.plan n start) ∧
      (v.res.staged = none → ¬enabled ∨ (¬forced ∧ ¬heeds) →
        start = match v.res.target with
          | some t => ⟨{ v.res with goal := some (32 * ((t : Int) - n)) }, v.handed v.res.plan e.dev (32 * ((t : Int) - n))⟩
          | none => v)) ∧
    (enabled → forced ∨ (ordinary ∧ heeds) → kept context ∧ v.Resolves e v.res.plan n context) ∧
    (¬enabled ∨ (¬forced ∧ (¬ordinary ∨ ¬heeds)) → context = v) ∧
    v.atPublication ⟨.context, e.copy, c⟩ { e with note := none } i = v ∧ v.atPublication ⟨.noteOff n, e.copy, c⟩ { e with note := none } i = v

/-- O41. FADE_STEP_COUNT, when due, moves each voice: IDLE and SOUNDING stand; RISING rises by 2 to at most 8 and is
SOUNDING at 8; FALLING falls by 1 and is IDLE at 0; the position before the step is kept for the ramp, and the
fade-step count and the ramp restart; nothing else changes. GRAIN_BOUNDARY of a voice whose last frame brought one
makes a pending shift the applied shift with its ratio code, one that a rate loss left too (the model's choice, log
entry 28), and changes no other voice and nothing else. Not due, either changes nothing (the due marks, and that a
boundary stands until it is taken, are the model's choice, log entry 1). (R136, R138, R139.) -/
def Obligations.FadeStepsAndGrainBoundaries : Prop :=
  (∀ s : State, s.due.fadeStep = false → exec .fadeStepCount s = .next s) ∧
  (∀ s : State, s.due.fadeStep = true → ∃ t, exec .fadeStepCount s = .next t ∧
    t = { s with due := { s.due with fadeStep := false }, renderer := { s.renderer with fadeCount := 0, ramp := 0 }, voices := t.voices } ∧
    ∀ i : Fin 4,
      let r := (s.voices.get i).ren
      let q := (t.voices.get i).ren
      (t.voices.get i).res = (s.voices.get i).res ∧
        q = { r with fadeOld := r.fade, fade := q.fade, state := q.state } ∧
        (r.state = .idle ∨ r.state = .sounding → q.fade = r.fade ∧ q.state = r.state) ∧
        (r.state = .rising → r.fade < 6 → q.fade = r.fade + 2 ∧ q.state = .rising) ∧
        (r.state = .rising → 6 ≤ r.fade → q.fade = 8 ∧ q.state = .sounding) ∧
        (r.state = .falling → 1 < r.fade → q.fade = r.fade - 1 ∧ q.state = .falling) ∧
        (r.state = .falling → r.fade ≤ 1 → q.fade = 0 ∧ q.state = .idle)) ∧
  ∀ (s : State) (i : Fin 4), ∃ t, exec (.grainBoundary i) s = .next t ∧ t = { s with voices := t.voices } ∧
    (∀ j, j ≠ i → t.voices.get j = s.voices.get j) ∧ (t.voices.get i).res = (s.voices.get i).res ∧
    let r := (s.voices.get i).ren
    (r.boundaryDue = false → t = s) ∧
    (r.boundaryDue = true → ∀ d, r.pending = some d →
      (t.voices.get i).ren = { r with boundaryDue := false, applied := d, ratio := ratioCode d, pending := none }) ∧
    (r.boundaryDue = true → r.pending = none → (t.voices.get i).ren = { r with boundaryDue := false })

/-- O42. Taking a goal G marks the voice as having a target; with the current interval absent, the voice IDLE or the
plan's glide 0, the interval is G, no glide runs and the requested shift is formed; else with G the current interval
no glide runs; else a glide of the plan's length starts from the current interval. A glide step lowers remaining by 1
and the interval is goal − trunc((goal − start)·remaining / length), and at remaining 0 the glide ends on the goal.
The requested shift is the interval, less dev when follow is no, clamped to −768 to +768; it is pending when it
differs from the applied shift, and otherwise nothing is pending. (R130, R131, R133, R134.) -/
def Obligations.GoalsGlidesAndShifts : Prop :=
  ∀ (r : RenderRecord) (plan : Plan) (dev G : Int),
    let shifted := fun (q : RenderRecord) (I : Int) =>
      let x := if plan.follow = true then I else I - dev
      let d := if x < -768 then -768 else if 768 < x then 768 else x
      { q with requested := some d, pending := if d = r.applied then none else some d }
    (r.interval = none ∨ r.state = .idle ∨ plan.glide = 0 →
      r.takeGoal plan dev G = shifted { r with hasTarget := true, interval := some G, glide := none } G) ∧
    (∀ I, r.interval = some I → r.state ≠ .idle → plan.glide ≠ 0 →
      (G = I → r.takeGoal plan dev G = { r with hasTarget := true, glide := none }) ∧
      (G ≠ I → r.takeGoal plan dev G = { r with hasTarget := true, glide := some ⟨I, G, plan.glide, plan.glide⟩ })) ∧
    (∀ g, r.glide = some g → 1 ≤ g.remaining → g.remaining ≤ g.length →
      let I := g.goal - Int.tdiv ((g.goal - g.start) * (g.remaining - 1 : Nat)) g.length
      r.hopWork plan.follow dev = shifted { r with
        interval := some I, glide := if g.remaining = 1 then none else some { g with remaining := g.remaining - 1 } } I ∧
      (g.remaining = 1 → I = g.goal)) ∧
    (∀ I, r.glide = none → r.interval = some I → r.hopWork plan.follow dev = shifted r I) ∧
    (r.glide = none → r.interval = none → r.hopWork plan.follow dev = r)

/-- O43. With nothing due: CUENEXT from no cursor enters step 0, or is refused with EMPTY when the list is empty; from
step k it enters k + 1 below the last step, step 0 from the last step under WRAP, and is otherwise refused with END
and sets CUEEND alone. CUEPREV from step k above 0 enters k − 1, from step 0 under WRAP the last step, and is
otherwise refused with END and changes nothing. CUEGOTO enters step k below the length and is otherwise refused with
RANGE. An entry does what R149 says, the context copy and the voices left as its CONTEXT publication leaves them, its
bindings then adopted at once on a voice that the publication left IDLE (the voice resolved and its goal or lost
target handed on as at any adoption) and staged on another, every sound condition tested afresh, and replies DONE with
the cursor, whose two bytes are log entry 6. CUESTOP makes the cursor none, the counter 0 and stopped and the entered
condition MANUAL, with DONE and no other change. DWELL_EXPIRY, when due and with no key proposal waiting
(DecayEventEvaluatesAndHalves says what a waiting one does), from step k enters step k + 1 below the length, or step 0
at the end of the list under WRAP, as R149 says, with its bindings staged or adopted as there (the decider's term of a
sound condition waits for a due note-on, log entry 2); at the end without WRAP it stops the counter, which keeps its
value, and sets CUEEND, with no other change. Without a cursor it changes nothing else. That a DWELL_EXPIRY that is
not due changes nothing is the model's reading (log entry 1). (R64, R113, R127, R137, R149, R150, R151, R152, R154,
R155, R169.) -/
def Obligations.CueNavigationEntersSteps : Prop :=
  (∀ (s : State) (src : Manual), s.Quiet →
    let enters := fun (c : Instr) (code : Byte) (j : Fin 64) => ∃ t, exec c s = .next (t.reply src ⟨code, .done, [1#8, BitVec.ofNat 8 j.val]⟩) ∧
      s.EntersStep t j ∧ t.due = s.due ∧ t.ports = s.ports
    let len := s.tables.cueLength
    (s.cue.cursor = none → len = 0 → exec (.cuenext src) s = .next (s.reply src ⟨0x20#8, .empty, []⟩)) ∧
    (s.cue.cursor = none → len ≠ 0 → enters (.cuenext src) 0x20#8 0) ∧
    (s.cue.cursor = none → exec (.cueprev src) s = .next (s.reply src ⟨0x21#8, .ended, []⟩)) ∧
    (∀ k, s.cue.cursor = some k →
      (∀ j : Fin 64, j.val = k.val + 1 → j.val < len → enters (.cuenext src) 0x20#8 j) ∧
      (len ≤ k.val + 1 → s.tables.wrap = true → enters (.cuenext src) 0x20#8 0) ∧
      (len ≤ k.val + 1 → s.tables.wrap = false → exec (.cuenext src) s = .next (State.reply (s.raise .cueEnd) src ⟨0x20#8, .ended, []⟩)) ∧
      (∀ j : Fin 64, k.val = j.val + 1 → enters (.cueprev src) 0x21#8 j) ∧
      (∀ j : Fin 64, k.val = 0 → s.tables.wrap = true → len = j.val + 1 → enters (.cueprev src) 0x21#8 j) ∧
      (k.val = 0 → s.tables.wrap = false → exec (.cueprev src) s = .next (s.reply src ⟨0x21#8, .ended, []⟩))) ∧
    (∀ step : Byte, step.toNat ≤ 63 → step.toNat < len → enters (.cuegoto src step) 0x22#8 (Fin.ofNat 64 step.toNat)) ∧
    (∀ step : Byte, 63 < step.toNat ∨ len ≤ step.toNat → exec (.cuegoto src step) s = .next (s.reply src ⟨0x22#8, .range, []⟩)) ∧
    exec (.cuestop src) s = .next (State.reply { s with cue := ⟨none, 0, false, .manual⟩ } src ⟨0x23#8, .done, []⟩)) ∧
  (∀ s : State, (s.due.dwell = false → exec .dwellExpiry s = .next s) ∧
    (s.due.dwell = true → s.due.proposal = none →
      let u := { s with due := { s.due with dwell := false } }
      let enters := fun (j : Fin 64) => ∃ t, exec .dwellExpiry s = .next t ∧ s.EntersStep t j ∧ t.due = u.due ∧ t.ports = s.ports
      (s.cue.cursor = none → exec .dwellExpiry s = .next u) ∧
      ∀ k, s.cue.cursor = some k →
        (∀ j : Fin 64, j.val = k.val + 1 → j.val < s.tables.cueLength → enters j) ∧
        (s.tables.cueLength ≤ k.val + 1 → s.tables.wrap = true → enters 0) ∧
        (s.tables.cueLength ≤ k.val + 1 → s.tables.wrap = false →
          exec .dwellExpiry s = .next (State.raise { u with cue := { s.cue with running := false } } .cueEnd))))

/-- O44. With nothing due, CUELOAD from PANEL replies RANGE exactly when the step is above 63, a present key is above 11
or a present scale slot above 7, the chord kind is above 2, a CHORD has a root above 11, a shape slot above 15 or a
present bass above 11, the advance kind is above 2, an ONSETS count is outside 1 to 255, a DWELL time is 0, or a
binding's voice is above 3 or its slot above 15. Else more than 4 binding pairs or a voice named twice replies FORMAT;
else an empty scale or shape slot named replies EMPTY; none changes anything else. Otherwise the whole step is
replaced by the record's fields, a bass that equals the root being stored absent, and the reply is DONE. A presence
byte of 0 is absent and one of 1 present; another value is open (log entry 4). CUELEN with a length above 64 or a WRAP
other than on (0) and off (1) replies RANGE and changes nothing else; otherwise it stores both and replies DONE with
them and the cursor (its bytes are log entry 6), and a cursor at or beyond the new length becomes none with the
counter 0 and stopped and the condition MANUAL. (R145, R146, R147, R152, R166, R169.) -/
def Obligations.CueListIsLoadedAndSized : Prop :=
  (readMark .cueload 0#8 = false ∧ readMark .cueload 1#8 = true) ∧
    ∀ s : State, s.Quiet →
    (∀ (step : Byte) (b : CueBytes),
      let present := fun (m : Byte) => readMark .cueload m = true
      let chorded := b.chord.kind = 2#8
      let inRange := step.toNat ≤ 63 ∧ (present b.keyMark → b.key.toNat ≤ 11) ∧ (present b.scaleMark → b.scale.toNat ≤ 7) ∧
        b.chord.kind.toNat ≤ 2 ∧
        (chorded → b.chord.root.toNat ≤ 11 ∧ b.chord.shape.toNat ≤ 15 ∧ (present b.chord.bassMark → b.chord.bass.toNat ≤ 11)) ∧
        b.advance.toNat ≤ 2 ∧ (b.advance = 1#8 → 1 ≤ b.count.toNat ∧ b.count.toNat ≤ 255) ∧ (b.advance = 2#8 → 1 ≤ b.count.toNat) ∧
        ∀ p ∈ b.bindings, p.1.toNat ≤ 3 ∧ p.2.toNat ≤ 15
      let formed := b.bindings.length ≤ 4 ∧ (b.bindings.map Prod.fst).Nodup
      let filled := (present b.scaleMark → (s.tables.scales.getD b.scale.toNat ⟨0#12, .parallel⟩).members ≠ 0#12) ∧
        (chorded → s.tables.shapes.getD b.chord.shape.toNat 0#12 ≠ 0#12)
      let stored : CueStep :=
        { key := if readMark .cueload b.keyMark = true then some (Fin.ofNat 12 b.key.toNat) else none
          scale := if readMark .cueload b.scaleMark = true then some (Fin.ofNat 8 b.scale.toNat) else none
          chord := if b.chord.kind = 0#8 then none else if b.chord.kind = 1#8 then some none
            else some (some ⟨Fin.ofNat 12 b.chord.root.toNat, Fin.ofNat 16 b.chord.shape.toNat,
              if readMark .cueload b.chord.bassMark = true ∧ b.chord.bass ≠ b.chord.root then some (Fin.ofNat 12 b.chord.bass.toNat) else none⟩)
          setMask := b.setMask, clearMask := b.clearMask
          bindings := b.bindings.map fun p => (Fin.ofNat 4 p.1.toNat, Fin.ofNat 16 p.2.toNat)
          advance := if b.advance = 0#8 then .manual else if b.advance = 1#8 then .onsets b.count.toNat else .dwell b.count.toNat }
      let run := exec (.cueload .panel step b) s
      (¬inRange → run = .next (s.reply .panel ⟨0x24#8, .range, []⟩)) ∧
        (inRange → ¬formed → run = .next (s.reply .panel ⟨0x24#8, .format, []⟩)) ∧
        (inRange → formed → ¬filled → run = .next (s.reply .panel ⟨0x24#8, .empty, []⟩)) ∧
        (inRange → formed → filled → run = .next (State.reply { s with
          tables := { s.tables with cues := s.tables.cues.set step.toNat stored } } .panel ⟨0x24#8, .done, []⟩))) ∧
    ∀ (length wrap : Byte),
      (64 < length.toNat ∨ 1 < wrap.toNat → exec (.cuelen .panel length wrap) s = .next (s.reply .panel ⟨0x25#8, .range, []⟩)) ∧
      (length.toNat ≤ 64 → wrap.toNat ≤ 1 →
        let tables := { s.tables with cueLength := length.toNat, wrap := decide (wrap = 0#8) }
        (∀ k, s.cue.cursor = some k → length.toNat ≤ k.val → exec (.cuelen .panel length wrap) s =
          .next (State.reply { s with tables := tables, cue := ⟨none, 0, false, .manual⟩ } .panel ⟨0x25#8, .done, [length, wrap, 0#8, 0#8]⟩)) ∧
        (∀ k, s.cue.cursor = some k → k.val < length.toNat → exec (.cuelen .panel length wrap) s =
          .next (State.reply { s with tables := tables } .panel ⟨0x25#8, .done, [length, wrap, 1#8, BitVec.ofNat 8 k.val]⟩)) ∧
        (s.cue.cursor = none → exec (.cuelen .panel length wrap) s =
          .next (State.reply { s with tables := tables } .panel ⟨0x25#8, .done, [length, wrap, 0#8, 0#8]⟩)))

/-- O45. With nothing due: SELECT_ASSERTION on a free port makes the select its holder, and while the other select holds
it makes the select refused. The release of a refused select leaves code H'00 with BUSY in its slot and frees no port.
A FETCH by the holder frees the port, with SPDO carrying a zero byte, the reply record (length, command, reply code,
data) and zeros, and changes no slot. The release of a command transaction by the holder frees the port, SPDO having
carried zero; no complete byte has no further effect; a record of n + 2 bytes, at most 32, is decoded and its command
runs with the select's source, or its refusal goes to the slot; any other number of bytes leaves FORMAT under the code
byte. (R158, R159, R160, R167, R169.) -/
def Obligations.SetupPortTransactions : Prop :=
  ∀ (s : State) (sel : Select), s.Quiet →
    let src : Manual := match sel with
      | .psel => .panel
      | .dsel => .desk
    (s.ports.holder = none → exec (.selectAssertion sel) s = .next { s with ports := { s.ports with holder := some sel, spdo := [] } }) ∧
    (∀ h, s.ports.holder = some h → h ≠ sel → exec (.selectAssertion sel) s = .next { s with ports := { s.ports with refused := some sel } }) ∧
    (s.ports.refused = some sel → exec (.refusedTransaction sel) s =
      .next (State.reply { s with ports := { s.ports with refused := none } } src ⟨0#8, .busy, []⟩)) ∧
    (s.ports.holder = some sel → ∀ n, exec (.fetch sel n) s =
      let r := s.slot src
      let record := BitVec.ofNat 8 (r.data.length + 2) :: r.command :: replyByte r.code :: r.data
      .next { s with ports := { s.ports with holder := none, spdo := 0#8 :: (record ++ List.replicate n 0#8).take n } }) ∧
    (s.ports.holder = some sel → ∀ bytes : List Byte, bytes.head? ≠ some 0#8 →
      let u := { s with ports := { s.ports with holder := none, spdo := List.replicate bytes.length 0#8 } }
      let run := exec (.commandTransaction sel bytes) s
      (bytes = [] → run = .next u) ∧
      (∀ code args, bytes = code :: BitVec.ofNat 8 args.length :: args → args.length ≤ 30 →
        (∀ i, decodeRecord src code args = .command i → run = exec i u) ∧
        (∀ r, decodeRecord src code args = .refused r → run = .next (u.reply src ⟨code, r, []⟩))) ∧
      (∀ code, bytes = [code] → run = .next (u.reply src ⟨code, .format, []⟩)) ∧
      (∀ code n args, bytes = code :: n :: args → args.length ≠ n.toNat ∨ 30 < args.length → run = .next (u.reply src ⟨code, .format, []⟩)))

/-- O46. With nothing due: START_CONDITION with another address leaves the port waiting for a START, unacknowledged, with
its counter stopped; with its own address it acknowledges, starts the time-out counter against the time-out in force,
and begins a write (direction bit 0) or a read of the slot as it stands (1); a transfer still in progress is discarded
(log entry 13). STAGE_WRITE ends a write at its STOP, which stops the counter, or at a repeated START, under which a
running counter runs on against the time-out in force, which the transfer's TWC falling edges brought; the first 16
bytes are acknowledged and no later one; no byte has no further effect; a record of n + 2 bytes, at most 16, is
decoded and its command runs with source STAGE, or its refusal goes to the slot; anything else leaves FORMAT under the
first byte. STAGE_READ ends a read in the same two ways, with TWD having carried the record and then zeros. TIME_OUT,
while the counter runs, says that it has reached its limit, whatever that is: the transfer is abandoned without
decoding and TWTIMEOUT is set, the slots and the setting unchanged. With the counter stopped TIME_OUT changes nothing
(log entry 9). (R161, R162, R163, R164, R165, R167, R169, R179.) -/
def Obligations.StagePortTransfers : Prop :=
  ∀ s : State, s.Quiet →
    let stopped := { s.ports with transfer := Transfer.idle, timer := none }
    let ended := fun (e : TransferEnd) => { s.ports with transfer := Transfer.idle, timer := if e = TransferEnd.stop then none else s.ports.timer.map fun _ => s.ports.timeout }
    (∀ a : Byte, a.extractLsb' 1 7 ≠ s.ports.address → exec (.startCondition a) s =
      .next { s with ports := { stopped with acknowledged := false, acks := [], twd := [] } }) ∧
    (∀ a : Byte, a.extractLsb' 1 7 = s.ports.address → exec (.startCondition a) s =
      .next { s with ports := { s.ports with
        acknowledged := true, acks := [], twd := [], timer := some s.ports.timeout
        transfer := if a.getLsbD 0 = true then .read s.ports.stage else .write } }) ∧
    (s.ports.transfer = .write → ∀ (bytes : List Byte) (e : TransferEnd),
      let u := { s with ports := { ended e with
        acks := List.replicate (min bytes.length 16) true ++ List.replicate (bytes.length - 16) false } }
      let run := exec (.stageWrite ⟨bytes, e⟩) s
      (bytes = [] → run = .next u) ∧
      (∀ code args, bytes = code :: BitVec.ofNat 8 args.length :: args → args.length ≤ 14 →
        (∀ i, decodeRecord .stage code args = .command i → run = exec i u) ∧
        (∀ r, decodeRecord .stage code args = .refused r → run = .next (u.reply .stage ⟨code, r, []⟩))) ∧
      (∀ code, bytes = [code] → run = .next (u.reply .stage ⟨code, .format, []⟩)) ∧
      (∀ code n args, bytes = code :: n :: args → args.length ≠ n.toNat ∨ 14 < args.length → run = .next (u.reply .stage ⟨code, .format, []⟩))) ∧
    (∀ r n e, s.ports.transfer = .read r → exec (.stageRead ⟨n, e⟩) s =
      let record := BitVec.ofNat 8 (r.data.length + 2) :: r.command :: replyByte r.code :: r.data
      .next { s with ports := { ended e with twd := (record ++ List.replicate n 0#8).take n } }) ∧
    (∀ limit, s.ports.timer = some limit → exec .timeOut s = .next (State.raise { s with ports := { stopped with twd := [] } } .twTimeout)) ∧
    (s.ports.timer = none → exec .timeOut s = .next s)

/-- O47. For every command that travels as a record, from a source that may give it and with at most 7 binding pairs,
decoding its argument bytes under its code and source gives the command with every operand. A code of no command is
UNKNOWN from any source; a command from a source that may not give it is NOTPERMITTED whatever the length; a permitted
command with a length outside its list is FORMAT, and so is a CUELOAD whose binding count byte is not (n − 16) / 2. A
PANEL record of 9 RATE arguments or 6 KEYTRACK arguments whose last, the action, is above 1, and a record of 2
SWITCHES arguments whose form is above 2, is refused with RANGE. A command given in a form its source may not send
replies NOTPERMITTED and changes nothing else. (R13, R63, R106, R166, R167, Table 10.1.) -/
def Obligations.RecordsDecodeToTheirCommands : Prop :=
  (∀ (i : Instr) (src : Manual) (c : Cmd) (args : List Byte), encodeArgs i = some (src, c, args) → src ∈ c.sources → i.wellFormed = true →
    decodeRecord src c.code args = .command i ∧ args.length ∈ c.lengths) ∧
  (∀ (src : Manual) (code : Byte) (args : List Byte), (∀ c ∈ Cmd.all, c.code ≠ code) → decodeRecord src code args = .refused .unknown) ∧
  (∀ (src : Manual) (c : Cmd) (args : List Byte), src ∉ c.sources → decodeRecord src c.code args = .refused .notPermitted) ∧
  (∀ (src : Manual) (c : Cmd) (args : List Byte), src ∈ c.sources → args.length ∉ c.lengths → decodeRecord src c.code args = .refused .format) ∧
  (∀ args : List Byte, args.length ∈ Cmd.cueload.lengths → (args.getD 15 0#8).toNat ≠ (args.length - 16) / 2 →
    decodeRecord .panel Cmd.cueload.code args = .refused .format) ∧
  (∀ (fields : List Byte) (action : Byte), 1 < action.toNat →
    (fields.length = 8 → decodeRecord .panel 0x42#8 (fields ++ [action]) = .refused .range) ∧
    (fields.length = 5 → decodeRecord .panel 0x44#8 (fields ++ [action]) = .refused .range)) ∧
  (∀ (src : Manual) (form arg : Byte), 2 < form.toNat → decodeRecord src 0x14#8 [form, arg] = .refused .range) ∧
  ∀ (i : Instr) (s : State) (src : Manual) (c : Cmd) (args : List Byte), s.Quiet → encodeArgs i = some (src, c, args) → src ∉ c.sources →
    exec i s = .next (s.reply src ⟨c.code, .notPermitted, []⟩)

/-- O48. RESTART from PANEL, with nothing due, gives the context of Tables 4.1 and 4.4 with hush absent, the decider
SILENT with dev 0, no learn, the line's settings kept with an empty FIFO, HUNT, counter 0 and no marks, LISTENING or
OFF by the enable (R81), no match, an empty queue, zero accumulators with the key settings kept, the voices bound to
slots 0, 1, 4 and 5 with those plans as the library holds them, no targets, IDLE at fade 0 with ratio code 16384, no
cursor, and no cause HOWL; the output state is DEGRADED naming RATE with FAULT alone set when cause RATE is present,
else RUN with no flag. That the ramp and every fadeOld are 0 with no boundary due, and no gap is pending, are values
the model names (log entry 14). The tables, the tracker settings and history, the rate monitor, the audio port, the
ports but for DONE in the PANEL slot, and the howl settings are kept. From STAGE and DESK it is refused with
NOTPERMITTED and changes nothing else. (R53, R65, R69, R81, R98, R110, R129, R148, R170, R175, R178.) -/
def Obligations.RestartResetsTheRuntime : Prop :=
  ∀ s : State, s.Quiet →
    (∃ t, exec (.restart .panel) s = .next t ∧
      t.ctx = { key := ⟨0, .reset, none, none⟩, scale := ⟨0, .reset, none, none⟩, chord := ⟨none, .reset, none, none⟩, switches := 0xaf#8
                lockMask := 0#8, hush := none, lineCond := if s.line.settings.enable = true then .listening else .off } ∧
      t.copy = t.ctx.published ∧ t.decider = ⟨.silent, 0⟩ ∧ t.tracker = { s.tracker with learn := none } ∧
      t.line = { settings := s.line.settings, wait := .high, fifo := [], gapPending := false, assembler := .hunt, silence := 0, frameSeen := false
                 broken := false, cond := if s.line.settings.enable = true then .listening else .off } ∧
      t.matcher = none ∧ t.queue = [] ∧ t.key = { s.key with acc := List.replicate 12 0, counter := 0, evaluation := none } ∧
      (∀ i (k : Fin 16), (i, k) ∈ [((0 : Fin 4), (0 : Fin 16)), (1, 1), (2, 4), (3, 5)] →
        (t.voices.get i).res = ⟨k, s.tables.plans.getD k.val planOff, none, none, none, none⟩ ∧
        (t.voices.get i).ren = ⟨.idle, 0, 0, true, false, none, none, none, none, 0, 16384, 0, false⟩) ∧
      t.renderer = ⟨.fixed, 2048, 0, 0⟩ ∧ t.cue = ⟨none, 0, false, .manual⟩ ∧
      t.fault = { s.fault with
        output := if s.rate.causeRate = true then .degraded .rate else .run
        causeHowl := false, howlCounter := 0, dev0 := none, recovery := 0
        flags := if s.rate.causeRate = true then 0x400#16 else 0#16 } ∧
      t.asp = s.asp ∧ t.rate = s.rate ∧ t.tables = s.tables ∧ t.ports = { s.ports with psel := ⟨0x52#8, .done, []⟩ } ∧ t.due = s.due ∧ t.draws = s.draws) ∧
    exec (.restart .stage) s = .next (s.reply .stage ⟨0x52#8, .notPermitted, []⟩) ∧
    exec (.restart .desk) s = .next (s.reply .desk ⟨0x52#8, .notPermitted, []⟩)

/-- O49. With nothing due, ACKFLAGS from PANEL clears exactly the flags its mask names, and replies DONE with the flags
after; ATN is asserted exactly while a flag is set. A flag that is set stays set through every command that is not
ACKFLAGS, RESTART, power-on, or a PANEL transaction carrying one of the first two. (R172, R179.) -/
def Obligations.FlagsStayUntilCleared : Prop :=
  (∀ (s : State) (mask : BitVec 16), s.Quiet →
    exec (.ackflags .panel mask) s = .next (State.reply { s with fault := { s.fault with flags := s.fault.flags &&& ~~~mask } } .panel
      ⟨0x51#8, .done, bytes16 (s.fault.flags &&& ~~~mask)⟩)) ∧
  (∀ s : State, s.atn = true ↔ ∃ i, i < 16 ∧ s.fault.flags.getLsbD i = true) ∧
  ∀ (s t : State) (c : Instr), exec c s = .next t → (∀ src mask, c ≠ .ackflags src mask) → (∀ src, c ≠ .restart src) → (∀ sa, c ≠ .powerOn sa) →
    (∀ bytes, c = .commandTransaction .psel bytes → bytes.head? ≠ some 0x51#8 ∧ bytes.head? ≠ some 0x52#8) →
    ∀ f, s.flag f = true → t.flag f = true

/-- O50. From every state in which it holds, a step keeps: the receive FIFO at most 2 characters and the chord queue at
most 4 entries; the dry delay line exactly 128 samples and the analysis history 4,096; twelve accumulators, each 0 to
65,535. (R3, R16, R77, R94, R98, R100.) -/
def Obligations.BuffersKeepTheirBounds : Prop :=
  ∀ s t : State, step s = .next t → (s.BuffersBounded → t.BuffersBounded) ∧ (s.DelayLinesFull → t.DelayLinesFull) ∧ (s.AccumulatorsBounded → t.AccumulatorsBounded)

/-- O51. A report while the check is enabled and cause HOWL absent: in HELD, with confidence 15, level 58 or more, a voice
SOUNDING, and dev within 1 of dev0 when that is present, the counter rises by 1, a counter of 0 takes dev0 from dev,
and the declaration is due at W or more; otherwise the counter is 0 and dev0 absent; while disabled or present nothing
moves. HOWL_DECLARED, when due with the cause absent, makes it present: RUN becomes DEGRADED naming HOWL with FAULT,
and every sound condition fails; DEGRADED for RATE and RECOVERING become BYPASS with the flag and every voice IDLE at
fade 0 with no ramp; BYPASS stays, and so does a state that names HOWL already. With the cause already present it
clears the due mark and tests the sound conditions. RECOVERY_COMPLETE, when due in RECOVERING, gives RUN with counter
0 and tests every sound condition afresh; in another state it clears the due mark alone. Neither changes anything
else: the howl counter, dev0, the recovery counter but for that 0, the settings and the resolver records stand. The
decider's term of a sound condition waits for a due note-on (log entry 2). That either changes nothing when it is not
due is the model's reading (log entry 1). With nothing due and the output state agreeing with the causes, CLEARFAULT
from PANEL or DESK: in RUN it replies DONE and changes nothing; in DEGRADED, and in BYPASS with a cause present, it
replies FAULTACTIVE and changes nothing; in RECOVERING and in BYPASS with no cause present the state becomes RUN with
recovery counter 0 and the reply is DONE, and every voice's sound condition is tested afresh; nothing else changes.
That the counter becomes 0 where BYPASS gives way to RUN is the model's choice (log entry 25: Table 11.2 gives it for
RECOVERING alone). The data is the output state's place in its list and, for each cause, 1 when present and 0 when
absent (those bytes are log entry 6). From STAGE it is refused with NOTPERMITTED. (R137, R140, R169, R173, R175, R176,
R177, Table 11.2.) -/
def Obligations.FaultCausesMoveTheOutputState : Prop :=
  ((∀ (f : FaultMonitor) (held : Bool) (confidence level : Nat) (sounding : Bool) (dev : Int),
    let terms := held = true ∧ confidence = 15 ∧ 58 ≤ level ∧ sounding = true ∧ ∀ d, f.dev0 = some d → dev - d ≤ 1 ∧ d - dev ≤ 1
    let r := f.howlReport held confidence level sounding dev
    (f.howlEnable = false ∨ f.causeHowl = true → r = (f, false)) ∧
    (f.howlEnable = true → f.causeHowl = false → terms →
      r = ({ f with howlCounter := f.howlCounter + 1, dev0 := if f.howlCounter = 0 then some dev else f.dev0 }, decide (f.window ≤ f.howlCounter + 1))) ∧
    (f.howlEnable = true → f.causeHowl = false → ¬terms → r = ({ f with howlCounter := 0, dev0 := none }, false))) ∧
  (∀ s : State, (s.due.howl = false → exec .howlDeclared s = .next s) ∧
    (s.due.howl = true → s.fault.causeHowl = false →
      let moved := fun (out : OutputState) (flags : BitVec 16) (f : RenderRecord → RenderRecord) => Host.Outcome.next { s with
        due := { s.due with howl := false }, fault := { s.fault with causeHowl := true, output := out, flags := flags }
        voices := s.voices.map fun v => { v with ren := f v.ren } }
      (s.fault.output = .run → exec .howlDeclared s = moved (.degraded .howl) (s.fault.flags ||| 0x400#16) fun r => r.retest false) ∧
      (s.fault.output = .degraded .rate ∨ s.fault.output = .recovering →
        exec .howlDeclared s = moved .bypass (s.fault.flags ||| 0x800#16) fun r => { r with state := .idle, fade := 0, fadeOld := 0 }) ∧
      (s.fault.output = .bypass ∨ s.fault.output = .degraded .howl →
        exec .howlDeclared s = moved s.fault.output s.fault.flags fun r => r.retest false)) ∧
    (s.due.howl = true → s.fault.causeHowl = true → exec .howlDeclared s = .next { s with
      due := { s.due with howl := false }, voices := s.voices.map fun v => { v with ren := v.ren.retest (s.soundCondition v.ren) } })) ∧
  ∀ s : State, (s.due.recovery = false → exec .recoveryComplete s = .next s) ∧
    (s.due.recovery = true → s.fault.output ≠ .recovering → exec .recoveryComplete s = .next { s with due := { s.due with recovery := false } }) ∧
    (s.due.recovery = true → s.fault.output = .recovering →
      let sound := fun (r : RenderRecord) => r.enable = true ∧ r.hasTarget = true ∧ s.noteTerm = true ∧ s.ctx.hush = none
      exec .recoveryComplete s = .next { s with
        due := { s.due with recovery := false }, fault := { s.fault with output := .run, recovery := 0 }
        voices := s.voices.map fun v => { v with ren := v.ren.retest (decide (sound v.ren)) } })) ∧
  (∀ (s : State) (src : Manual), s.Quiet → s.OutputAgrees →
    let mark := fun (b : Bool) => if b = true then 1#8 else (0#8 : Byte)
    let causes : List Byte := [mark s.rate.causeRate, mark s.fault.causeHowl]
    let active := s.rate.causeRate = true ∨ s.fault.causeHowl = true
    (src ≠ .stage →
      (s.fault.output = .run → exec (.clearfault src) s = .next (s.reply src ⟨0x50#8, .done, 0#8 :: causes⟩)) ∧
      (∀ k, s.fault.output = .degraded k → exec (.clearfault src) s = .next (s.reply src ⟨0x50#8, .faultActive, 1#8 :: causes⟩)) ∧
      (s.fault.output = .bypass → active → exec (.clearfault src) s = .next (s.reply src ⟨0x50#8, .faultActive, 3#8 :: causes⟩)) ∧
      (s.fault.output = .recovering ∨ (s.fault.output = .bypass ∧ ¬active) →
        let sound := fun (r : RenderRecord) => r.enable = true ∧ r.hasTarget = true ∧ s.decider.state.note ≠ none ∧ s.ctx.hush = none
        exec (.clearfault src) s = .next (State.reply { s with
          fault := { s.fault with output := .run, recovery := 0 }
          voices := s.voices.map fun v => { v with ren := v.ren.retest (decide (sound v.ren)) } } src ⟨0x50#8, .done, 0#8 :: causes⟩))) ∧
    exec (.clearfault .stage) s = .next (s.reply .stage ⟨0x50#8, .notPermitted, []⟩))

/-- O52. From every state in which the list length is at most 64 and a present cursor is below it, a step gives a state in
which the same holds. (R145, R148.) -/
def Obligations.CursorStaysInsideTheList : Prop :=
  ∀ s t : State, step s = .next t → (s.CursorInside → t.CursorInside)

/-- O53. From every state in which it holds, a step keeps: every library, active and staged plan in the ranges of Table
3.4; the decider's notes and a waiting event's note at most 95; each voice's target within the low and high of its
active plan, its goal within −3040 to +3040, a goal present exactly with a target, and the renderer's has-target mark
saying so. (R46, R109, R125, R126, R127.) -/
def Obligations.TargetsStayInThePlanRange : Prop :=
  ∀ s t : State, step s = .next t → (s.TargetsInRange → t.TargetsInRange)

/-- O54. From every state in which it holds, a step keeps, for every voice: requested, pending and applied shifts within
−768 to +768 and the applied ratio code that of the applied shift; fade 0 in IDLE, at most 7 in RISING, 8 in SOUNDING,
1 to 8 in FALLING; and the current interval of a running glide between its start and goal. (R131, R133, R134, R138,
Table 8.1, Table 8.5.) -/
def Obligations.RendererRecordsStayInRange : Prop :=
  ∀ s t : State, step s = .next t → (s.ShiftsInRange → t.ShiftsInRange) ∧ (s.FadesPlaced → t.FadesPlaced) ∧ (s.GlidesBetween → t.GlidesBetween)

/-- O55. From every state in which it holds, a step keeps: each voice is RISING or SOUNDING exactly while its sound
condition holds; and while the output state is BYPASS or the part is hushed every voice is IDLE at fade position 0
with no ramp left. While a note-on waits for its note-start operation the decider's term counts as not yet reached
(the model's choice, log entry 2). (R137, R140.) -/
def Obligations.VoicesFollowTheSoundCondition : Prop :=
  ∀ s t : State, step s = .next t → (s.SilencedIdle → t.SilencedIdle) ∧ (s.SoundFollows → t.SoundFollows)

/-- O56. From every state in which it holds, a step keeps: a pinned field is owned by its pin holder, and a shadow stands
only while the field is pinned; the resolver's context copy is the context in force (with no chord when none is
usable), and the renderer's copy of each enable is that of its switch word. (R52, R70, R109, R117, R129.) -/
def Obligations.ContextAndCopyStayConsistent : Prop :=
  ∀ s t : State, step s = .next t → (s.PinsOwned → t.PinsOwned) ∧ (s.CopyCurrent → t.CopyCurrent)

/-- O57. From every state in which it holds, a step keeps: scale slot 0, the SCALE field's slot, its shadow's and every
cue step's are non-empty; the chord in force, its shadow, every queue entry and every cue step name non-empty shape
slots; and a match scores only shapes of slots that are non-empty still. (R38, R43, R52, R94, R145.) -/
def Obligations.NamedSlotsStayFilled : Prop :=
  ∀ s t : State, step s = .next t → (s.SlotsFilled → t.SlotsFilled)

/-- O58. From every state in which it holds, a step keeps: no cause in RUN and RECOVERING, and in DEGRADED the cause it
names alone; Nrate, the window and the measurement lists within 32,768 to 131,071 with at most 4 entries each, the out
count at most 3, cause RATE absent in UNLOCKED and LOCKED and present in LOST. (R5, R6, R8, R9, R11, R13, R14, R175,
R176.) -/
def Obligations.OutputStateAgreesWithTheCauses : Prop :=
  ∀ s t : State, step s = .next t → (s.OutputAgrees → t.OutputAgrees)

/-- O59. From every state in which it holds, a step keeps: the tracker, line, key tracker, howl and time-out settings in
the ranges of their rules; with the tracker settings in range, the decider's counts within Table 2.5 and dev within
−31 to +30, 0 in SILENT and ONSET. (R21, R28, R79, R106, R165, R174, Table 2.1, Table 2.5.) -/
def Obligations.SettingsAndDeciderStayInRange : Prop :=
  ∀ s t : State, step s = .next t → (s.SettingsInRange → t.SettingsInRange) ∧ (s.DeciderInRange → t.DeciderInRange)

/-- O60. For every value of SA1:SA0, the power-on state, and with it the reset state, meets each of the invariants that
the statements about steps keep. (R15, R6, R22, R28, R62, R81, R98, R110, R129, R148, R178.) -/
def Obligations.ResetMeetsEveryInvariant : Prop :=
  ∀ sa : BitVec 2,
    let s := State.powerOn sa
    s.BuffersBounded ∧ s.DelayLinesFull ∧ s.AccumulatorsBounded ∧ s.CursorInside ∧ s.TargetsInRange ∧ s.ShiftsInRange ∧ s.FadesPlaced ∧
      s.GlidesBetween ∧ s.SilencedIdle ∧ s.SoundFollows ∧ s.PinsOwned ∧ s.CopyCurrent ∧ s.SlotsFilled ∧ s.OutputAgrees ∧ s.SettingsInRange ∧
      s.DeciderInRange
end

