-- ==== Sys2Proof/Laws/Frame.lean ====
section
/-! SUPPORT. Frame lemmas: which parts of the state each shared operation leaves as they are. Each is one conjunction,
tagged `@[simp]`, with one equation for every part left alone. -/

namespace Sys2Proof.Machine

@[simp] theorem State.raise_frame (s : State) (f : Flag) :
    (s.raise f).asp = s.asp ∧ (s.raise f).rate = s.rate ∧ (s.raise f).tracker = s.tracker ∧ (s.raise f).decider = s.decider ∧
    (s.raise f).tables = s.tables ∧ (s.raise f).ctx = s.ctx ∧ (s.raise f).line = s.line ∧ (s.raise f).matcher = s.matcher ∧
    (s.raise f).queue = s.queue ∧ (s.raise f).key = s.key ∧ (s.raise f).copy = s.copy ∧ (s.raise f).voices = s.voices ∧
    (s.raise f).renderer = s.renderer ∧ (s.raise f).cue = s.cue ∧ (s.raise f).ports = s.ports ∧ (s.raise f).due = s.due ∧
    (s.raise f).draws = s.draws ∧ (s.raise f).pending = s.pending := by
  simp [State.raise]

@[simp] theorem State.raiseIf_frame (s : State) (c : Bool) (f : Flag) :
    (s.raiseIf c f).asp = s.asp ∧ (s.raiseIf c f).rate = s.rate ∧ (s.raiseIf c f).tracker = s.tracker ∧
    (s.raiseIf c f).decider = s.decider ∧ (s.raiseIf c f).tables = s.tables ∧ (s.raiseIf c f).ctx = s.ctx ∧ (s.raiseIf c f).line = s.line ∧
    (s.raiseIf c f).matcher = s.matcher ∧ (s.raiseIf c f).queue = s.queue ∧ (s.raiseIf c f).key = s.key ∧ (s.raiseIf c f).copy = s.copy ∧
    (s.raiseIf c f).voices = s.voices ∧ (s.raiseIf c f).renderer = s.renderer ∧ (s.raiseIf c f).cue = s.cue ∧
    (s.raiseIf c f).ports = s.ports ∧ (s.raiseIf c f).due = s.due ∧ (s.raiseIf c f).draws = s.draws ∧ (s.raiseIf c f).pending = s.pending := by
  simp only [State.raiseIf]; cases c <;> simp

@[simp] theorem State.reply_frame (s : State) (src : Manual) (r : Reply) :
    (s.reply src r).asp = s.asp ∧ (s.reply src r).rate = s.rate ∧ (s.reply src r).tracker = s.tracker ∧
    (s.reply src r).decider = s.decider ∧ (s.reply src r).tables = s.tables ∧ (s.reply src r).ctx = s.ctx ∧ (s.reply src r).line = s.line ∧
    (s.reply src r).matcher = s.matcher ∧ (s.reply src r).queue = s.queue ∧ (s.reply src r).key = s.key ∧ (s.reply src r).copy = s.copy ∧
    (s.reply src r).voices = s.voices ∧ (s.reply src r).renderer = s.renderer ∧ (s.reply src r).cue = s.cue ∧
    (s.reply src r).fault = s.fault ∧ (s.reply src r).due = s.due ∧ (s.reply src r).draws = s.draws ∧ (s.reply src r).pending = s.pending := by
  cases src <;> simp [State.reply]

@[simp] theorem State.mapRen_frame (s : State) (f : RenderRecord → RenderRecord) :
    (s.mapRen f).asp = s.asp ∧ (s.mapRen f).rate = s.rate ∧ (s.mapRen f).tracker = s.tracker ∧ (s.mapRen f).decider = s.decider ∧
    (s.mapRen f).tables = s.tables ∧ (s.mapRen f).ctx = s.ctx ∧ (s.mapRen f).line = s.line ∧ (s.mapRen f).matcher = s.matcher ∧
    (s.mapRen f).queue = s.queue ∧ (s.mapRen f).key = s.key ∧ (s.mapRen f).copy = s.copy ∧ (s.mapRen f).renderer = s.renderer ∧
    (s.mapRen f).cue = s.cue ∧ (s.mapRen f).ports = s.ports ∧ (s.mapRen f).fault = s.fault ∧ (s.mapRen f).due = s.due ∧
    (s.mapRen f).draws = s.draws ∧ (s.mapRen f).pending = s.pending := by
  simp [State.mapRen]

@[simp] theorem State.retest_frame (s : State) :
    (s.retest).asp = s.asp ∧ (s.retest).rate = s.rate ∧ (s.retest).tracker = s.tracker ∧ (s.retest).decider = s.decider ∧
    (s.retest).tables = s.tables ∧ (s.retest).ctx = s.ctx ∧ (s.retest).line = s.line ∧ (s.retest).matcher = s.matcher ∧
    (s.retest).queue = s.queue ∧ (s.retest).key = s.key ∧ (s.retest).copy = s.copy ∧ (s.retest).renderer = s.renderer ∧
    (s.retest).cue = s.cue ∧ (s.retest).ports = s.ports ∧ (s.retest).fault = s.fault ∧ (s.retest).due = s.due ∧
    (s.retest).draws = s.draws ∧ (s.retest).pending = s.pending := by
  simp [State.retest]

@[simp] theorem State.cutVoices_frame (s : State) :
    (s.cutVoices).asp = s.asp ∧ (s.cutVoices).rate = s.rate ∧ (s.cutVoices).tracker = s.tracker ∧ (s.cutVoices).decider = s.decider ∧
    (s.cutVoices).tables = s.tables ∧ (s.cutVoices).ctx = s.ctx ∧ (s.cutVoices).line = s.line ∧ (s.cutVoices).matcher = s.matcher ∧
    (s.cutVoices).queue = s.queue ∧ (s.cutVoices).key = s.key ∧ (s.cutVoices).copy = s.copy ∧ (s.cutVoices).renderer = s.renderer ∧
    (s.cutVoices).cue = s.cue ∧ (s.cutVoices).ports = s.ports ∧ (s.cutVoices).fault = s.fault ∧ (s.cutVoices).due = s.due ∧
    (s.cutVoices).draws = s.draws ∧ (s.cutVoices).pending = s.pending := by
  simp [State.cutVoices]

@[simp] theorem State.hopWork_frame (s : State) :
    (s.hopWork).asp = s.asp ∧ (s.hopWork).rate = s.rate ∧ (s.hopWork).tracker = s.tracker ∧ (s.hopWork).decider = s.decider ∧
    (s.hopWork).tables = s.tables ∧ (s.hopWork).ctx = s.ctx ∧ (s.hopWork).line = s.line ∧ (s.hopWork).matcher = s.matcher ∧
    (s.hopWork).queue = s.queue ∧ (s.hopWork).key = s.key ∧ (s.hopWork).copy = s.copy ∧ (s.hopWork).renderer = s.renderer ∧
    (s.hopWork).cue = s.cue ∧ (s.hopWork).ports = s.ports ∧ (s.hopWork).fault = s.fault ∧ (s.hopWork).due = s.due ∧
    (s.hopWork).draws = s.draws ∧ (s.hopWork).pending = s.pending := by
  simp [State.hopWork]

@[simp] theorem State.fadeStep_frame (s : State) :
    (s.fadeStep).asp = s.asp ∧ (s.fadeStep).rate = s.rate ∧ (s.fadeStep).tracker = s.tracker ∧ (s.fadeStep).decider = s.decider ∧
    (s.fadeStep).tables = s.tables ∧ (s.fadeStep).ctx = s.ctx ∧ (s.fadeStep).line = s.line ∧ (s.fadeStep).matcher = s.matcher ∧
    (s.fadeStep).queue = s.queue ∧ (s.fadeStep).key = s.key ∧ (s.fadeStep).copy = s.copy ∧ (s.fadeStep).cue = s.cue ∧
    (s.fadeStep).ports = s.ports ∧ (s.fadeStep).fault = s.fault ∧ (s.fadeStep).due = s.due ∧ (s.fadeStep).draws = s.draws ∧
    (s.fadeStep).pending = s.pending := by
  simp [State.fadeStep]

@[simp] theorem State.flushQueue_frame (s : State) :
    (s.flushQueue).asp = s.asp ∧ (s.flushQueue).rate = s.rate ∧ (s.flushQueue).tracker = s.tracker ∧ (s.flushQueue).decider = s.decider ∧
    (s.flushQueue).tables = s.tables ∧ (s.flushQueue).ctx = s.ctx ∧ (s.flushQueue).line = s.line ∧ (s.flushQueue).key = s.key ∧
    (s.flushQueue).copy = s.copy ∧ (s.flushQueue).voices = s.voices ∧ (s.flushQueue).renderer = s.renderer ∧ (s.flushQueue).cue = s.cue ∧
    (s.flushQueue).ports = s.ports ∧ (s.flushQueue).fault = s.fault ∧ (s.flushQueue).due = s.due ∧ (s.flushQueue).draws = s.draws ∧
    (s.flushQueue).pending = s.pending := by
  simp [State.flushQueue]

@[simp] theorem State.appendQueue_frame (s : State) (e : QueueEntry) :
    (s.appendQueue e).asp = s.asp ∧ (s.appendQueue e).rate = s.rate ∧ (s.appendQueue e).tracker = s.tracker ∧
    (s.appendQueue e).decider = s.decider ∧ (s.appendQueue e).tables = s.tables ∧ (s.appendQueue e).ctx = s.ctx ∧
    (s.appendQueue e).line = s.line ∧ (s.appendQueue e).matcher = s.matcher ∧ (s.appendQueue e).key = s.key ∧
    (s.appendQueue e).copy = s.copy ∧ (s.appendQueue e).voices = s.voices ∧ (s.appendQueue e).renderer = s.renderer ∧
    (s.appendQueue e).cue = s.cue ∧ (s.appendQueue e).ports = s.ports ∧ (s.appendQueue e).due = s.due ∧ (s.appendQueue e).draws = s.draws ∧
    (s.appendQueue e).pending = s.pending := by
  simp only [State.appendQueue]; (repeat' split) <;> simp

@[simp] theorem State.stageOn_frame (s : State) (i : Fin 4) (p : Staged) (h : Handing) :
    (s.stageOn i p h).asp = s.asp ∧ (s.stageOn i p h).rate = s.rate ∧ (s.stageOn i p h).tracker = s.tracker ∧
    (s.stageOn i p h).decider = s.decider ∧ (s.stageOn i p h).tables = s.tables ∧ (s.stageOn i p h).ctx = s.ctx ∧
    (s.stageOn i p h).line = s.line ∧ (s.stageOn i p h).matcher = s.matcher ∧ (s.stageOn i p h).queue = s.queue ∧
    (s.stageOn i p h).key = s.key ∧ (s.stageOn i p h).copy = s.copy ∧ (s.stageOn i p h).renderer = s.renderer ∧
    (s.stageOn i p h).cue = s.cue ∧ (s.stageOn i p h).ports = s.ports ∧ (s.stageOn i p h).fault = s.fault ∧ (s.stageOn i p h).due = s.due ∧
    (s.stageOn i p h).draws = s.draws ∧ (s.stageOn i p h).pending = s.pending := by
  simp [State.stageOn]

@[simp] theorem State.deliver_frame (s : State) (p : Publication) :
    (s.deliver p).asp = s.asp ∧ (s.deliver p).rate = s.rate ∧ (s.deliver p).tracker = s.tracker ∧ (s.deliver p).decider = s.decider ∧
    (s.deliver p).tables = s.tables ∧ (s.deliver p).ctx = s.ctx ∧ (s.deliver p).line = s.line ∧ (s.deliver p).matcher = s.matcher ∧
    (s.deliver p).queue = s.queue ∧ (s.deliver p).key = s.key ∧ (s.deliver p).renderer = s.renderer ∧ (s.deliver p).cue = s.cue ∧
    (s.deliver p).ports = s.ports ∧ (s.deliver p).fault = s.fault ∧ (s.deliver p).due = s.due ∧ (s.deliver p).draws = s.draws ∧
    (s.deliver p).pending = s.pending := by
  simp [State.deliver]

@[simp] theorem State.publish_frame (s : State) (k : PublicationKind) (c : Changes) :
    (s.publish k c).asp = s.asp ∧ (s.publish k c).rate = s.rate ∧ (s.publish k c).tracker = s.tracker ∧
    (s.publish k c).decider = s.decider ∧ (s.publish k c).tables = s.tables ∧ (s.publish k c).ctx = s.ctx ∧ (s.publish k c).line = s.line ∧
    (s.publish k c).matcher = s.matcher ∧ (s.publish k c).queue = s.queue ∧ (s.publish k c).key = s.key ∧
    (s.publish k c).renderer = s.renderer ∧ (s.publish k c).cue = s.cue ∧ (s.publish k c).ports = s.ports ∧
    (s.publish k c).fault = s.fault ∧ (s.publish k c).due = s.due ∧ (s.publish k c).draws = s.draws ∧ (s.publish k c).pending = s.pending := by
  simp [State.publish]

@[simp] theorem State.publishChanges_frame (s : State) (b : Context) (t : Bool) :
    (s.publishChanges b t).asp = s.asp ∧ (s.publishChanges b t).rate = s.rate ∧ (s.publishChanges b t).tracker = s.tracker ∧
    (s.publishChanges b t).decider = s.decider ∧ (s.publishChanges b t).tables = s.tables ∧ (s.publishChanges b t).ctx = s.ctx ∧
    (s.publishChanges b t).line = s.line ∧ (s.publishChanges b t).matcher = s.matcher ∧ (s.publishChanges b t).queue = s.queue ∧
    (s.publishChanges b t).key = s.key ∧ (s.publishChanges b t).renderer = s.renderer ∧ (s.publishChanges b t).cue = s.cue ∧
    (s.publishChanges b t).ports = s.ports ∧ (s.publishChanges b t).fault = s.fault ∧ (s.publishChanges b t).due = s.due ∧
    (s.publishChanges b t).draws = s.draws ∧ (s.publishChanges b t).pending = s.pending := by
  simp only [State.publishChanges]; (repeat' split) <;> simp

@[simp] theorem State.publishNote_frame (s : State) (k : PublicationKind) (b : Context) :
    (s.publishNote k b).asp = s.asp ∧ (s.publishNote k b).rate = s.rate ∧ (s.publishNote k b).tracker = s.tracker ∧
    (s.publishNote k b).decider = s.decider ∧ (s.publishNote k b).tables = s.tables ∧ (s.publishNote k b).ctx = s.ctx ∧
    (s.publishNote k b).line = s.line ∧ (s.publishNote k b).matcher = s.matcher ∧ (s.publishNote k b).queue = s.queue ∧
    (s.publishNote k b).key = s.key ∧ (s.publishNote k b).renderer = s.renderer ∧ (s.publishNote k b).cue = s.cue ∧
    (s.publishNote k b).ports = s.ports ∧ (s.publishNote k b).fault = s.fault ∧ (s.publishNote k b).due = s.due ∧
    (s.publishNote k b).draws = s.draws ∧ (s.publishNote k b).pending = s.pending := by
  simp [State.publishNote]

@[simp] theorem State.autoKey_frame (s : State) (v : Fin 12) (a : Auto) :
    (s.autoKey v a).asp = s.asp ∧ (s.autoKey v a).rate = s.rate ∧ (s.autoKey v a).tracker = s.tracker ∧
    (s.autoKey v a).decider = s.decider ∧ (s.autoKey v a).tables = s.tables ∧ (s.autoKey v a).line = s.line ∧
    (s.autoKey v a).matcher = s.matcher ∧ (s.autoKey v a).queue = s.queue ∧ (s.autoKey v a).key = s.key ∧ (s.autoKey v a).copy = s.copy ∧
    (s.autoKey v a).voices = s.voices ∧ (s.autoKey v a).renderer = s.renderer ∧ (s.autoKey v a).cue = s.cue ∧
    (s.autoKey v a).ports = s.ports ∧ (s.autoKey v a).due = s.due ∧ (s.autoKey v a).draws = s.draws ∧ (s.autoKey v a).pending = s.pending := by
  simp [State.autoKey, State.writeKey]

@[simp] theorem State.autoScale_frame (s : State) (v : Fin 8) (a : Auto) :
    (s.autoScale v a).asp = s.asp ∧ (s.autoScale v a).rate = s.rate ∧ (s.autoScale v a).tracker = s.tracker ∧
    (s.autoScale v a).decider = s.decider ∧ (s.autoScale v a).tables = s.tables ∧ (s.autoScale v a).line = s.line ∧
    (s.autoScale v a).matcher = s.matcher ∧ (s.autoScale v a).queue = s.queue ∧ (s.autoScale v a).key = s.key ∧
    (s.autoScale v a).copy = s.copy ∧ (s.autoScale v a).voices = s.voices ∧ (s.autoScale v a).renderer = s.renderer ∧
    (s.autoScale v a).cue = s.cue ∧ (s.autoScale v a).ports = s.ports ∧ (s.autoScale v a).fault = s.fault ∧ (s.autoScale v a).due = s.due ∧
    (s.autoScale v a).draws = s.draws ∧ (s.autoScale v a).pending = s.pending := by
  simp [State.autoScale, State.writeScale]

@[simp] theorem State.autoChord_frame (s : State) (v : Option Chord) (a : Auto) :
    (s.autoChord v a).asp = s.asp ∧ (s.autoChord v a).rate = s.rate ∧ (s.autoChord v a).tracker = s.tracker ∧
    (s.autoChord v a).decider = s.decider ∧ (s.autoChord v a).tables = s.tables ∧ (s.autoChord v a).line = s.line ∧
    (s.autoChord v a).matcher = s.matcher ∧ (s.autoChord v a).queue = s.queue ∧ (s.autoChord v a).key = s.key ∧
    (s.autoChord v a).copy = s.copy ∧ (s.autoChord v a).voices = s.voices ∧ (s.autoChord v a).renderer = s.renderer ∧
    (s.autoChord v a).cue = s.cue ∧ (s.autoChord v a).ports = s.ports ∧ (s.autoChord v a).fault = s.fault ∧ (s.autoChord v a).due = s.due ∧
    (s.autoChord v a).draws = s.draws ∧ (s.autoChord v a).pending = s.pending := by
  simp [State.autoChord, State.writeChord]

@[simp] theorem State.setSwitches_frame (s : State) (w : BitVec 8) :
    (s.setSwitches w).asp = s.asp ∧ (s.setSwitches w).rate = s.rate ∧ (s.setSwitches w).tracker = s.tracker ∧
    (s.setSwitches w).decider = s.decider ∧ (s.setSwitches w).tables = s.tables ∧ (s.setSwitches w).line = s.line ∧
    (s.setSwitches w).key = s.key ∧ (s.setSwitches w).copy = s.copy ∧ (s.setSwitches w).voices = s.voices ∧
    (s.setSwitches w).renderer = s.renderer ∧ (s.setSwitches w).cue = s.cue ∧ (s.setSwitches w).ports = s.ports ∧
    (s.setSwitches w).fault = s.fault ∧ (s.setSwitches w).due = s.due ∧ (s.setSwitches w).draws = s.draws ∧
    (s.setSwitches w).pending = s.pending := by
  simp only [State.setSwitches]; (repeat' split) <;> simp

@[simp] theorem State.writeStepFields_frame (s : State) (c : CueStep) :
    (s.writeStepFields c).asp = s.asp ∧ (s.writeStepFields c).rate = s.rate ∧ (s.writeStepFields c).tracker = s.tracker ∧
    (s.writeStepFields c).decider = s.decider ∧ (s.writeStepFields c).tables = s.tables ∧ (s.writeStepFields c).line = s.line ∧
    (s.writeStepFields c).matcher = s.matcher ∧ (s.writeStepFields c).queue = s.queue ∧ (s.writeStepFields c).key = s.key ∧
    (s.writeStepFields c).copy = s.copy ∧ (s.writeStepFields c).voices = s.voices ∧ (s.writeStepFields c).renderer = s.renderer ∧
    (s.writeStepFields c).cue = s.cue ∧ (s.writeStepFields c).ports = s.ports ∧ (s.writeStepFields c).due = s.due ∧
    (s.writeStepFields c).draws = s.draws ∧ (s.writeStepFields c).pending = s.pending := by
  simp only [State.writeStepFields]; (repeat' split) <;> simp

@[simp] theorem State.writeStepSwitches_frame (s : State) (c : CueStep) :
    (s.writeStepSwitches c).asp = s.asp ∧ (s.writeStepSwitches c).rate = s.rate ∧ (s.writeStepSwitches c).tracker = s.tracker ∧
    (s.writeStepSwitches c).decider = s.decider ∧ (s.writeStepSwitches c).tables = s.tables ∧ (s.writeStepSwitches c).line = s.line ∧
    (s.writeStepSwitches c).key = s.key ∧ (s.writeStepSwitches c).copy = s.copy ∧ (s.writeStepSwitches c).voices = s.voices ∧
    (s.writeStepSwitches c).renderer = s.renderer ∧ (s.writeStepSwitches c).cue = s.cue ∧ (s.writeStepSwitches c).ports = s.ports ∧
    (s.writeStepSwitches c).fault = s.fault ∧ (s.writeStepSwitches c).due = s.due ∧ (s.writeStepSwitches c).draws = s.draws ∧
    (s.writeStepSwitches c).pending = s.pending := by
  simp [State.writeStepSwitches]

@[simp] theorem State.stageStep_frame (s : State) (c : CueStep) (h : Handing) :
    (s.stageStep c h).asp = s.asp ∧ (s.stageStep c h).rate = s.rate ∧ (s.stageStep c h).tracker = s.tracker ∧
    (s.stageStep c h).decider = s.decider ∧ (s.stageStep c h).tables = s.tables ∧ (s.stageStep c h).ctx = s.ctx ∧
    (s.stageStep c h).line = s.line ∧ (s.stageStep c h).matcher = s.matcher ∧ (s.stageStep c h).queue = s.queue ∧
    (s.stageStep c h).key = s.key ∧ (s.stageStep c h).copy = s.copy ∧ (s.stageStep c h).renderer = s.renderer ∧
    (s.stageStep c h).cue = s.cue ∧ (s.stageStep c h).ports = s.ports ∧ (s.stageStep c h).fault = s.fault ∧ (s.stageStep c h).due = s.due ∧
    (s.stageStep c h).draws = s.draws ∧ (s.stageStep c h).pending = s.pending := by
  unfold State.stageStep
  generalize c.bindings = l
  induction l generalizing s with
  | nil => simp
  | cons b l ih => simp only [List.foldl_cons]; simpa using ih (s.stageOn b.1 ⟨s.tables.plans.getD b.2.val planOff, b.2⟩ h)

@[simp] theorem State.setCursor_frame (s : State) (k : Fin 64) (c : CueStep) :
    (s.setCursor k c).asp = s.asp ∧ (s.setCursor k c).rate = s.rate ∧ (s.setCursor k c).tracker = s.tracker ∧
    (s.setCursor k c).decider = s.decider ∧ (s.setCursor k c).tables = s.tables ∧ (s.setCursor k c).ctx = s.ctx ∧
    (s.setCursor k c).line = s.line ∧ (s.setCursor k c).matcher = s.matcher ∧ (s.setCursor k c).queue = s.queue ∧
    (s.setCursor k c).key = s.key ∧ (s.setCursor k c).copy = s.copy ∧ (s.setCursor k c).voices = s.voices ∧
    (s.setCursor k c).renderer = s.renderer ∧ (s.setCursor k c).ports = s.ports ∧ (s.setCursor k c).due = s.due ∧
    (s.setCursor k c).draws = s.draws ∧ (s.setCursor k c).pending = s.pending := by
  simp [State.setCursor]

@[simp] theorem State.clearCue_frame (s : State) :
    (s.clearCue).asp = s.asp ∧ (s.clearCue).rate = s.rate ∧ (s.clearCue).tracker = s.tracker ∧ (s.clearCue).decider = s.decider ∧
    (s.clearCue).tables = s.tables ∧ (s.clearCue).ctx = s.ctx ∧ (s.clearCue).line = s.line ∧ (s.clearCue).matcher = s.matcher ∧
    (s.clearCue).queue = s.queue ∧ (s.clearCue).key = s.key ∧ (s.clearCue).copy = s.copy ∧ (s.clearCue).voices = s.voices ∧
    (s.clearCue).renderer = s.renderer ∧ (s.clearCue).ports = s.ports ∧ (s.clearCue).fault = s.fault ∧ (s.clearCue).due = s.due ∧
    (s.clearCue).draws = s.draws ∧ (s.clearCue).pending = s.pending := by
  simp [State.clearCue]

@[simp] theorem State.enterStep_frame (s : State) (k : Fin 64) :
    (s.enterStep k).asp = s.asp ∧ (s.enterStep k).rate = s.rate ∧ (s.enterStep k).tracker = s.tracker ∧
    (s.enterStep k).decider = s.decider ∧ (s.enterStep k).tables = s.tables ∧ (s.enterStep k).line = s.line ∧ (s.enterStep k).key = s.key ∧
    (s.enterStep k).renderer = s.renderer ∧ (s.enterStep k).ports = s.ports ∧ (s.enterStep k).due = s.due ∧
    (s.enterStep k).draws = s.draws ∧ (s.enterStep k).pending = s.pending := by
  simp [State.enterStep]

@[simp] theorem State.enterStepHeld_frame (s : State) (k : Fin 64) :
    (s.enterStepHeld k).asp = s.asp ∧ (s.enterStepHeld k).rate = s.rate ∧ (s.enterStepHeld k).tracker = s.tracker ∧
    (s.enterStepHeld k).decider = s.decider ∧ (s.enterStepHeld k).tables = s.tables ∧ (s.enterStepHeld k).line = s.line ∧
    (s.enterStepHeld k).key = s.key ∧ (s.enterStepHeld k).copy = s.copy ∧ (s.enterStepHeld k).renderer = s.renderer ∧
    (s.enterStepHeld k).ports = s.ports ∧ (s.enterStepHeld k).due = s.due ∧ (s.enterStepHeld k).draws = s.draws ∧
    (s.enterStepHeld k).pending = s.pending := by
  simp [State.enterStepHeld]

@[simp] theorem State.oneShotStop_frame (s : State) :
    (s.oneShotStop).asp = s.asp ∧ (s.oneShotStop).rate = s.rate ∧ (s.oneShotStop).tracker = s.tracker ∧
    (s.oneShotStop).decider = s.decider ∧ (s.oneShotStop).tables = s.tables ∧ (s.oneShotStop).ctx = s.ctx ∧ (s.oneShotStop).line = s.line ∧
    (s.oneShotStop).matcher = s.matcher ∧ (s.oneShotStop).queue = s.queue ∧ (s.oneShotStop).key = s.key ∧ (s.oneShotStop).copy = s.copy ∧
    (s.oneShotStop).voices = s.voices ∧ (s.oneShotStop).renderer = s.renderer ∧ (s.oneShotStop).ports = s.ports ∧
    (s.oneShotStop).due = s.due ∧ (s.oneShotStop).draws = s.draws ∧ (s.oneShotStop).pending = s.pending := by
  simp [State.oneShotStop]

@[simp] theorem State.advance_frame (s : State) :
    (s.advance).asp = s.asp ∧ (s.advance).rate = s.rate ∧ (s.advance).tracker = s.tracker ∧ (s.advance).decider = s.decider ∧
    (s.advance).tables = s.tables ∧ (s.advance).line = s.line ∧ (s.advance).key = s.key ∧ (s.advance).renderer = s.renderer ∧
    (s.advance).ports = s.ports ∧ (s.advance).due = s.due ∧ (s.advance).draws = s.draws ∧ (s.advance).pending = s.pending := by
  simp only [State.advance]; (repeat' split) <;> simp

@[simp] theorem State.advanceHeld_frame (s : State) :
    (s.advanceHeld).asp = s.asp ∧ (s.advanceHeld).rate = s.rate ∧ (s.advanceHeld).tracker = s.tracker ∧
    (s.advanceHeld).decider = s.decider ∧ (s.advanceHeld).tables = s.tables ∧ (s.advanceHeld).line = s.line ∧ (s.advanceHeld).key = s.key ∧
    (s.advanceHeld).copy = s.copy ∧ (s.advanceHeld).renderer = s.renderer ∧ (s.advanceHeld).ports = s.ports ∧ (s.advanceHeld).due = s.due ∧
    (s.advanceHeld).draws = s.draws ∧ (s.advanceHeld).pending = s.pending := by
  simp only [State.advanceHeld]; (repeat' split) <;> simp

@[simp] theorem State.cueOnset_frame (s : State) :
    (s.cueOnset).asp = s.asp ∧ (s.cueOnset).rate = s.rate ∧ (s.cueOnset).tracker = s.tracker ∧ (s.cueOnset).decider = s.decider ∧
    (s.cueOnset).tables = s.tables ∧ (s.cueOnset).line = s.line ∧ (s.cueOnset).key = s.key ∧ (s.cueOnset).copy = s.copy ∧
    (s.cueOnset).renderer = s.renderer ∧ (s.cueOnset).ports = s.ports ∧ (s.cueOnset).due = s.due ∧ (s.cueOnset).draws = s.draws ∧
    (s.cueOnset).pending = s.pending := by
  simp only [State.cueOnset]; (repeat' split) <;> simp

@[simp] theorem State.enterBypass_frame (s : State) :
    (s.enterBypass).asp = s.asp ∧ (s.enterBypass).rate = s.rate ∧ (s.enterBypass).tracker = s.tracker ∧
    (s.enterBypass).decider = s.decider ∧ (s.enterBypass).tables = s.tables ∧ (s.enterBypass).ctx = s.ctx ∧ (s.enterBypass).line = s.line ∧
    (s.enterBypass).matcher = s.matcher ∧ (s.enterBypass).queue = s.queue ∧ (s.enterBypass).key = s.key ∧ (s.enterBypass).copy = s.copy ∧
    (s.enterBypass).renderer = s.renderer ∧ (s.enterBypass).cue = s.cue ∧ (s.enterBypass).ports = s.ports ∧ (s.enterBypass).due = s.due ∧
    (s.enterBypass).draws = s.draws ∧ (s.enterBypass).pending = s.pending := by
  simp [State.enterBypass]

@[simp] theorem State.causeAppears_frame (s : State) (k : Cause) :
    (s.causeAppears k).asp = s.asp ∧ (s.causeAppears k).rate = s.rate ∧ (s.causeAppears k).tracker = s.tracker ∧
    (s.causeAppears k).decider = s.decider ∧ (s.causeAppears k).tables = s.tables ∧ (s.causeAppears k).ctx = s.ctx ∧
    (s.causeAppears k).line = s.line ∧ (s.causeAppears k).matcher = s.matcher ∧ (s.causeAppears k).queue = s.queue ∧
    (s.causeAppears k).key = s.key ∧ (s.causeAppears k).copy = s.copy ∧ (s.causeAppears k).renderer = s.renderer ∧
    (s.causeAppears k).cue = s.cue ∧ (s.causeAppears k).ports = s.ports ∧ (s.causeAppears k).due = s.due ∧
    (s.causeAppears k).draws = s.draws ∧ (s.causeAppears k).pending = s.pending := by
  simp only [State.causeAppears]; (repeat' split) <;> simp

@[simp] theorem State.causeClears_frame (s : State) (k : Cause) :
    (s.causeClears k).asp = s.asp ∧ (s.causeClears k).rate = s.rate ∧ (s.causeClears k).tracker = s.tracker ∧
    (s.causeClears k).decider = s.decider ∧ (s.causeClears k).tables = s.tables ∧ (s.causeClears k).ctx = s.ctx ∧
    (s.causeClears k).line = s.line ∧ (s.causeClears k).matcher = s.matcher ∧ (s.causeClears k).queue = s.queue ∧
    (s.causeClears k).key = s.key ∧ (s.causeClears k).copy = s.copy ∧ (s.causeClears k).voices = s.voices ∧
    (s.causeClears k).renderer = s.renderer ∧ (s.causeClears k).cue = s.cue ∧ (s.causeClears k).ports = s.ports ∧
    (s.causeClears k).due = s.due ∧ (s.causeClears k).draws = s.draws ∧ (s.causeClears k).pending = s.pending := by
  simp only [State.causeClears]; (repeat' split) <;> simp

@[simp] theorem State.howlAppears_frame (s : State) :
    (s.howlAppears).asp = s.asp ∧ (s.howlAppears).rate = s.rate ∧ (s.howlAppears).tracker = s.tracker ∧
    (s.howlAppears).decider = s.decider ∧ (s.howlAppears).tables = s.tables ∧ (s.howlAppears).ctx = s.ctx ∧ (s.howlAppears).line = s.line ∧
    (s.howlAppears).matcher = s.matcher ∧ (s.howlAppears).queue = s.queue ∧ (s.howlAppears).key = s.key ∧ (s.howlAppears).copy = s.copy ∧
    (s.howlAppears).renderer = s.renderer ∧ (s.howlAppears).cue = s.cue ∧ (s.howlAppears).ports = s.ports ∧ (s.howlAppears).due = s.due ∧
    (s.howlAppears).draws = s.draws ∧ (s.howlAppears).pending = s.pending := by
  simp only [State.howlAppears]; (repeat' split) <;> simp

@[simp] theorem State.howlSilent_frame (s : State) :
    (s.howlSilent).asp = s.asp ∧ (s.howlSilent).rate = s.rate ∧ (s.howlSilent).tracker = s.tracker ∧ (s.howlSilent).decider = s.decider ∧
    (s.howlSilent).tables = s.tables ∧ (s.howlSilent).ctx = s.ctx ∧ (s.howlSilent).line = s.line ∧ (s.howlSilent).matcher = s.matcher ∧
    (s.howlSilent).queue = s.queue ∧ (s.howlSilent).key = s.key ∧ (s.howlSilent).copy = s.copy ∧ (s.howlSilent).voices = s.voices ∧
    (s.howlSilent).renderer = s.renderer ∧ (s.howlSilent).cue = s.cue ∧ (s.howlSilent).ports = s.ports ∧ (s.howlSilent).due = s.due ∧
    (s.howlSilent).draws = s.draws ∧ (s.howlSilent).pending = s.pending := by
  simp only [State.howlSilent]; (repeat' split) <;> simp

@[simp] theorem State.enterRun_frame (s : State) :
    (s.enterRun).asp = s.asp ∧ (s.enterRun).rate = s.rate ∧ (s.enterRun).tracker = s.tracker ∧ (s.enterRun).decider = s.decider ∧
    (s.enterRun).tables = s.tables ∧ (s.enterRun).ctx = s.ctx ∧ (s.enterRun).line = s.line ∧ (s.enterRun).matcher = s.matcher ∧
    (s.enterRun).queue = s.queue ∧ (s.enterRun).key = s.key ∧ (s.enterRun).copy = s.copy ∧ (s.enterRun).renderer = s.renderer ∧
    (s.enterRun).cue = s.cue ∧ (s.enterRun).ports = s.ports ∧ (s.enterRun).due = s.due ∧ (s.enterRun).draws = s.draws ∧
    (s.enterRun).pending = s.pending := by
  simp [State.enterRun]

@[simp] theorem State.evaluation_frame (s : State) :
    (s.evaluation).asp = s.asp ∧ (s.evaluation).rate = s.rate ∧ (s.evaluation).tracker = s.tracker ∧
    (s.evaluation).decider = s.decider ∧ (s.evaluation).tables = s.tables ∧ (s.evaluation).ctx = s.ctx ∧
    (s.evaluation).line = s.line ∧ (s.evaluation).matcher = s.matcher ∧ (s.evaluation).queue = s.queue ∧
    (s.evaluation).copy = s.copy ∧ (s.evaluation).voices = s.voices ∧ (s.evaluation).renderer = s.renderer ∧
    (s.evaluation).cue = s.cue ∧ (s.evaluation).ports = s.ports ∧ (s.evaluation).fault = s.fault ∧
    (s.evaluation).draws = s.draws ∧ (s.evaluation).pending = s.pending := by
  simp [State.evaluation]

@[simp] theorem State.takeProposal_frame (s : State) :
    (s.takeProposal).asp = s.asp ∧ (s.takeProposal).rate = s.rate ∧ (s.takeProposal).tracker = s.tracker ∧
    (s.takeProposal).decider = s.decider ∧ (s.takeProposal).tables = s.tables ∧ (s.takeProposal).line = s.line ∧
    (s.takeProposal).matcher = s.matcher ∧ (s.takeProposal).queue = s.queue ∧ (s.takeProposal).key = s.key ∧
    (s.takeProposal).renderer = s.renderer ∧ (s.takeProposal).cue = s.cue ∧ (s.takeProposal).ports = s.ports ∧
    (s.takeProposal).draws = s.draws ∧ (s.takeProposal).pending = s.pending := by
  simp only [State.takeProposal]; split <;> simp

@[simp] theorem State.forceSilent_frame (s : State) :
    (s.forceSilent).asp = s.asp ∧ (s.forceSilent).rate = s.rate ∧ (s.forceSilent).tracker = s.tracker ∧ (s.forceSilent).tables = s.tables ∧
    (s.forceSilent).ctx = s.ctx ∧ (s.forceSilent).line = s.line ∧ (s.forceSilent).matcher = s.matcher ∧ (s.forceSilent).queue = s.queue ∧
    (s.forceSilent).key = s.key ∧ (s.forceSilent).copy = s.copy ∧ (s.forceSilent).voices = s.voices ∧ (s.forceSilent).cue = s.cue ∧
    (s.forceSilent).ports = s.ports ∧ (s.forceSilent).due = s.due ∧ (s.forceSilent).draws = s.draws ∧ (s.forceSilent).pending = s.pending := by
  simp [State.forceSilent]

@[simp] theorem State.completeLearn_frame (s : State) :
    (s.completeLearn).asp = s.asp ∧ (s.completeLearn).rate = s.rate ∧ (s.completeLearn).decider = s.decider ∧
    (s.completeLearn).tables = s.tables ∧ (s.completeLearn).ctx = s.ctx ∧ (s.completeLearn).line = s.line ∧
    (s.completeLearn).matcher = s.matcher ∧ (s.completeLearn).queue = s.queue ∧ (s.completeLearn).key = s.key ∧
    (s.completeLearn).copy = s.copy ∧ (s.completeLearn).voices = s.voices ∧ (s.completeLearn).renderer = s.renderer ∧
    (s.completeLearn).cue = s.cue ∧ (s.completeLearn).ports = s.ports ∧ (s.completeLearn).due = s.due ∧ (s.completeLearn).draws = s.draws ∧
    (s.completeLearn).pending = s.pending := by
  simp only [State.completeLearn]; (repeat' split) <;> simp

@[simp] theorem State.failLearn_frame (s : State) :
    (s.failLearn).asp = s.asp ∧ (s.failLearn).rate = s.rate ∧ (s.failLearn).decider = s.decider ∧ (s.failLearn).tables = s.tables ∧
    (s.failLearn).ctx = s.ctx ∧ (s.failLearn).line = s.line ∧ (s.failLearn).matcher = s.matcher ∧ (s.failLearn).queue = s.queue ∧
    (s.failLearn).key = s.key ∧ (s.failLearn).copy = s.copy ∧ (s.failLearn).voices = s.voices ∧ (s.failLearn).renderer = s.renderer ∧
    (s.failLearn).cue = s.cue ∧ (s.failLearn).ports = s.ports ∧ (s.failLearn).due = s.due ∧ (s.failLearn).draws = s.draws ∧
    (s.failLearn).pending = s.pending := by
  simp [State.failLearn]

@[simp] theorem State.takeHead_frame (s : State) (t : Trigger) :
    (s.takeHead t).asp = s.asp ∧ (s.takeHead t).rate = s.rate ∧ (s.takeHead t).tracker = s.tracker ∧ (s.takeHead t).decider = s.decider ∧
    (s.takeHead t).tables = s.tables ∧ (s.takeHead t).line = s.line ∧ (s.takeHead t).matcher = s.matcher ∧ (s.takeHead t).key = s.key ∧
    (s.takeHead t).copy = s.copy ∧ (s.takeHead t).voices = s.voices ∧ (s.takeHead t).renderer = s.renderer ∧ (s.takeHead t).cue = s.cue ∧
    (s.takeHead t).ports = s.ports ∧ (s.takeHead t).fault = s.fault ∧ (s.takeHead t).due = s.due ∧ (s.takeHead t).draws = s.draws ∧
    (s.takeHead t).pending = s.pending := by
  simp only [State.takeHead]; (repeat' split) <;> simp

@[simp] theorem State.noteTaken_frame (s : State) :
    (s.noteTaken).asp = s.asp ∧ (s.noteTaken).rate = s.rate ∧ (s.noteTaken).tracker = s.tracker ∧ (s.noteTaken).decider = s.decider ∧
    (s.noteTaken).tables = s.tables ∧ (s.noteTaken).ctx = s.ctx ∧ (s.noteTaken).line = s.line ∧ (s.noteTaken).matcher = s.matcher ∧
    (s.noteTaken).queue = s.queue ∧ (s.noteTaken).key = s.key ∧ (s.noteTaken).copy = s.copy ∧ (s.noteTaken).voices = s.voices ∧
    (s.noteTaken).renderer = s.renderer ∧ (s.noteTaken).cue = s.cue ∧ (s.noteTaken).ports = s.ports ∧ (s.noteTaken).fault = s.fault ∧
    (s.noteTaken).draws = s.draws ∧ (s.noteTaken).pending = s.pending := by
  simp [State.noteTaken]

@[simp] theorem State.noteStart_frame (s : State) (k : PublicationKind) :
    (s.noteStart k).asp = s.asp ∧ (s.noteStart k).rate = s.rate ∧ (s.noteStart k).tracker = s.tracker ∧
    (s.noteStart k).decider = s.decider ∧ (s.noteStart k).tables = s.tables ∧ (s.noteStart k).line = s.line ∧ (s.noteStart k).key = s.key ∧
    (s.noteStart k).renderer = s.renderer ∧ (s.noteStart k).ports = s.ports ∧ (s.noteStart k).draws = s.draws ∧
    (s.noteStart k).pending = s.pending := by
  simp [State.noteStart]

@[simp] theorem State.noteOff_frame (s : State) (n : Nat) :
    (s.noteOff n).asp = s.asp ∧ (s.noteOff n).rate = s.rate ∧ (s.noteOff n).tracker = s.tracker ∧ (s.noteOff n).decider = s.decider ∧
    (s.noteOff n).tables = s.tables ∧ (s.noteOff n).line = s.line ∧ (s.noteOff n).matcher = s.matcher ∧ (s.noteOff n).key = s.key ∧
    (s.noteOff n).renderer = s.renderer ∧ (s.noteOff n).cue = s.cue ∧ (s.noteOff n).ports = s.ports ∧ (s.noteOff n).fault = s.fault ∧
    (s.noteOff n).draws = s.draws ∧ (s.noteOff n).pending = s.pending := by
  simp [State.noteOff]

@[simp] theorem State.breakAction_frame (s : State) :
    (s.breakAction).asp = s.asp ∧ (s.breakAction).rate = s.rate ∧ (s.breakAction).tracker = s.tracker ∧
    (s.breakAction).decider = s.decider ∧ (s.breakAction).tables = s.tables ∧ (s.breakAction).line = s.line ∧
    (s.breakAction).matcher = s.matcher ∧ (s.breakAction).queue = s.queue ∧ (s.breakAction).key = s.key ∧ (s.breakAction).copy = s.copy ∧
    (s.breakAction).voices = s.voices ∧ (s.breakAction).renderer = s.renderer ∧ (s.breakAction).cue = s.cue ∧
    (s.breakAction).ports = s.ports ∧ (s.breakAction).fault = s.fault ∧ (s.breakAction).due = s.due ∧ (s.breakAction).draws = s.draws ∧
    (s.breakAction).pending = s.pending := by
  simp only [State.breakAction]; (repeat' split) <;> simp

@[simp] theorem State.lossActions_frame (s : State) (c : LineCondition) :
    (s.lossActions c).asp = s.asp ∧ (s.lossActions c).rate = s.rate ∧ (s.lossActions c).tracker = s.tracker ∧
    (s.lossActions c).decider = s.decider ∧ (s.lossActions c).tables = s.tables ∧ (s.lossActions c).line = s.line ∧
    (s.lossActions c).key = s.key ∧ (s.lossActions c).copy = s.copy ∧ (s.lossActions c).voices = s.voices ∧
    (s.lossActions c).renderer = s.renderer ∧ (s.lossActions c).cue = s.cue ∧ (s.lossActions c).ports = s.ports ∧
    (s.lossActions c).due = s.due ∧ (s.lossActions c).draws = s.draws ∧ (s.lossActions c).pending = s.pending := by
  simp only [State.lossActions]; (repeat' split) <;> simp

@[simp] theorem State.handCondition_frame (s : State) (c : LineCondition) :
    (s.handCondition c).asp = s.asp ∧ (s.handCondition c).rate = s.rate ∧ (s.handCondition c).tracker = s.tracker ∧
    (s.handCondition c).decider = s.decider ∧ (s.handCondition c).tables = s.tables ∧ (s.handCondition c).key = s.key ∧
    (s.handCondition c).renderer = s.renderer ∧ (s.handCondition c).cue = s.cue ∧ (s.handCondition c).ports = s.ports ∧
    (s.handCondition c).due = s.due ∧ (s.handCondition c).draws = s.draws ∧ (s.handCondition c).pending = s.pending := by
  simp only [State.handCondition]; (repeat' split) <;> simp

@[simp] theorem State.deriveCondition_frame (s : State) :
    (s.deriveCondition).asp = s.asp ∧ (s.deriveCondition).rate = s.rate ∧ (s.deriveCondition).tracker = s.tracker ∧
    (s.deriveCondition).decider = s.decider ∧ (s.deriveCondition).tables = s.tables ∧ (s.deriveCondition).key = s.key ∧
    (s.deriveCondition).renderer = s.renderer ∧ (s.deriveCondition).cue = s.cue ∧ (s.deriveCondition).ports = s.ports ∧
    (s.deriveCondition).due = s.due ∧ (s.deriveCondition).draws = s.draws ∧ (s.deriveCondition).pending = s.pending := by
  simp [State.deriveCondition]

@[simp] theorem State.chordNow_frame (s : State) (v : Option Chord) :
    (s.chordNow v).asp = s.asp ∧ (s.chordNow v).rate = s.rate ∧ (s.chordNow v).tracker = s.tracker ∧ (s.chordNow v).decider = s.decider ∧
    (s.chordNow v).tables = s.tables ∧ (s.chordNow v).line = s.line ∧ (s.chordNow v).key = s.key ∧ (s.chordNow v).renderer = s.renderer ∧
    (s.chordNow v).cue = s.cue ∧ (s.chordNow v).ports = s.ports ∧ (s.chordNow v).fault = s.fault ∧ (s.chordNow v).due = s.due ∧
    (s.chordNow v).draws = s.draws ∧ (s.chordNow v).pending = s.pending := by
  simp [State.chordNow]

@[simp] theorem State.chordAt_frame (s : State) (v : Option Chord) (a : ApplyAt) :
    (s.chordAt v a).asp = s.asp ∧ (s.chordAt v a).rate = s.rate ∧ (s.chordAt v a).tracker = s.tracker ∧
    (s.chordAt v a).decider = s.decider ∧ (s.chordAt v a).tables = s.tables ∧ (s.chordAt v a).line = s.line ∧ (s.chordAt v a).key = s.key ∧
    (s.chordAt v a).renderer = s.renderer ∧ (s.chordAt v a).cue = s.cue ∧ (s.chordAt v a).ports = s.ports ∧ (s.chordAt v a).due = s.due ∧
    (s.chordAt v a).draws = s.draws ∧ (s.chordAt v a).pending = s.pending := by
  simp only [State.chordAt]; (repeat' split) <;> simp

@[simp] theorem State.frameContent_frame (s : State) (c : FrameContent) :
    (s.frameContent c).asp = s.asp ∧ (s.frameContent c).rate = s.rate ∧ (s.frameContent c).tracker = s.tracker ∧
    (s.frameContent c).decider = s.decider ∧ (s.frameContent c).tables = s.tables ∧ (s.frameContent c).key = s.key ∧
    (s.frameContent c).renderer = s.renderer ∧ (s.frameContent c).cue = s.cue ∧ (s.frameContent c).ports = s.ports ∧
    (s.frameContent c).due = s.due ∧ (s.frameContent c).draws = s.draws ∧ (s.frameContent c).pending = s.pending := by
  simp only [State.frameContent]; (repeat' split) <;> simp

@[simp] theorem State.setAssembler_frame (s : State) (a : Assembler) :
    (s.setAssembler a).asp = s.asp ∧ (s.setAssembler a).rate = s.rate ∧ (s.setAssembler a).tracker = s.tracker ∧
    (s.setAssembler a).decider = s.decider ∧ (s.setAssembler a).tables = s.tables ∧ (s.setAssembler a).ctx = s.ctx ∧
    (s.setAssembler a).matcher = s.matcher ∧ (s.setAssembler a).queue = s.queue ∧ (s.setAssembler a).key = s.key ∧
    (s.setAssembler a).copy = s.copy ∧ (s.setAssembler a).voices = s.voices ∧ (s.setAssembler a).renderer = s.renderer ∧
    (s.setAssembler a).cue = s.cue ∧ (s.setAssembler a).ports = s.ports ∧ (s.setAssembler a).fault = s.fault ∧
    (s.setAssembler a).due = s.due ∧ (s.setAssembler a).draws = s.draws ∧ (s.setAssembler a).pending = s.pending := by
  simp [State.setAssembler]

@[simp] theorem State.validFrame_frame (s : State) (c : FrameContent) :
    (s.validFrame c).asp = s.asp ∧ (s.validFrame c).rate = s.rate ∧ (s.validFrame c).tracker = s.tracker ∧
    (s.validFrame c).decider = s.decider ∧ (s.validFrame c).tables = s.tables ∧ (s.validFrame c).key = s.key ∧
    (s.validFrame c).renderer = s.renderer ∧ (s.validFrame c).cue = s.cue ∧ (s.validFrame c).ports = s.ports ∧
    (s.validFrame c).due = s.due ∧ (s.validFrame c).draws = s.draws ∧ (s.validFrame c).pending = s.pending := by
  simp only [State.validFrame]; (repeat' split) <;> simp

@[simp] theorem State.dropFrame_frame (s : State) :
    (s.dropFrame).asp = s.asp ∧ (s.dropFrame).rate = s.rate ∧ (s.dropFrame).tracker = s.tracker ∧ (s.dropFrame).decider = s.decider ∧
    (s.dropFrame).tables = s.tables ∧ (s.dropFrame).ctx = s.ctx ∧ (s.dropFrame).matcher = s.matcher ∧ (s.dropFrame).queue = s.queue ∧
    (s.dropFrame).key = s.key ∧ (s.dropFrame).copy = s.copy ∧ (s.dropFrame).voices = s.voices ∧ (s.dropFrame).renderer = s.renderer ∧
    (s.dropFrame).cue = s.cue ∧ (s.dropFrame).ports = s.ports ∧ (s.dropFrame).due = s.due ∧ (s.dropFrame).draws = s.draws ∧
    (s.dropFrame).pending = s.pending := by
  simp [State.dropFrame]

@[simp] theorem State.completeFrame_frame (s : State) (k : FrameKind) (d : List Byte) :
    (s.completeFrame k d).asp = s.asp ∧ (s.completeFrame k d).rate = s.rate ∧ (s.completeFrame k d).tracker = s.tracker ∧
    (s.completeFrame k d).decider = s.decider ∧ (s.completeFrame k d).tables = s.tables ∧ (s.completeFrame k d).key = s.key ∧
    (s.completeFrame k d).renderer = s.renderer ∧ (s.completeFrame k d).cue = s.cue ∧ (s.completeFrame k d).ports = s.ports ∧
    (s.completeFrame k d).due = s.due ∧ (s.completeFrame k d).draws = s.draws ∧ (s.completeFrame k d).pending = s.pending := by
  simp only [State.completeFrame]; (repeat' split) <;> simp

@[simp] theorem State.takeHeader_frame (s : State) (v : Byte) :
    (s.takeHeader v).asp = s.asp ∧ (s.takeHeader v).rate = s.rate ∧ (s.takeHeader v).tracker = s.tracker ∧
    (s.takeHeader v).decider = s.decider ∧ (s.takeHeader v).tables = s.tables ∧ (s.takeHeader v).key = s.key ∧
    (s.takeHeader v).renderer = s.renderer ∧ (s.takeHeader v).cue = s.cue ∧ (s.takeHeader v).ports = s.ports ∧
    (s.takeHeader v).due = s.due ∧ (s.takeHeader v).draws = s.draws ∧ (s.takeHeader v).pending = s.pending := by
  simp only [State.takeHeader]; (repeat' split) <;> simp

@[simp] theorem State.huntChar_frame (s : State) (c : LineChar) :
    (s.huntChar c).asp = s.asp ∧ (s.huntChar c).rate = s.rate ∧ (s.huntChar c).tracker = s.tracker ∧ (s.huntChar c).decider = s.decider ∧
    (s.huntChar c).tables = s.tables ∧ (s.huntChar c).key = s.key ∧ (s.huntChar c).renderer = s.renderer ∧ (s.huntChar c).cue = s.cue ∧
    (s.huntChar c).ports = s.ports ∧ (s.huntChar c).due = s.due ∧ (s.huntChar c).draws = s.draws ∧ (s.huntChar c).pending = s.pending := by
  simp only [State.huntChar]; (repeat' split) <;> simp

@[simp] theorem State.frameChar_frame (s : State) (k : FrameKind) (n : Nat) (d : List Byte) (c : LineChar) :
    (s.frameChar k n d c).asp = s.asp ∧ (s.frameChar k n d c).rate = s.rate ∧ (s.frameChar k n d c).tracker = s.tracker ∧
    (s.frameChar k n d c).decider = s.decider ∧ (s.frameChar k n d c).tables = s.tables ∧ (s.frameChar k n d c).key = s.key ∧
    (s.frameChar k n d c).renderer = s.renderer ∧ (s.frameChar k n d c).cue = s.cue ∧ (s.frameChar k n d c).ports = s.ports ∧
    (s.frameChar k n d c).due = s.due ∧ (s.frameChar k n d c).draws = s.draws ∧ (s.frameChar k n d c).pending = s.pending := by
  simp only [State.frameChar]; (repeat' split) <;> simp

@[simp] theorem State.takeChar_frame (s : State) :
    (s.takeChar).asp = s.asp ∧ (s.takeChar).rate = s.rate ∧ (s.takeChar).tracker = s.tracker ∧ (s.takeChar).decider = s.decider ∧
    (s.takeChar).tables = s.tables ∧ (s.takeChar).key = s.key ∧ (s.takeChar).renderer = s.renderer ∧ (s.takeChar).cue = s.cue ∧
    (s.takeChar).ports = s.ports ∧ (s.takeChar).due = s.due ∧ (s.takeChar).draws = s.draws ∧ (s.takeChar).pending = s.pending := by
  simp only [State.takeChar]; (repeat' split) <;> simp

@[simp] theorem State.drain_frame (s : State) (n : Nat) :
    (State.drain n s).asp = s.asp ∧ (State.drain n s).rate = s.rate ∧ (State.drain n s).tracker = s.tracker ∧
    (State.drain n s).decider = s.decider ∧ (State.drain n s).tables = s.tables ∧ (State.drain n s).key = s.key ∧
    (State.drain n s).renderer = s.renderer ∧ (State.drain n s).cue = s.cue ∧ (State.drain n s).ports = s.ports ∧
    (State.drain n s).due = s.due ∧ (State.drain n s).draws = s.draws ∧ (State.drain n s).pending = s.pending := by
  induction n generalizing s with
  | zero => simp [State.drain]
  | succ n ih => simp only [State.drain]; simpa using ih s.takeChar

@[simp] theorem State.receive_frame (s : State) (c : LineChar) :
    (s.receive c).asp = s.asp ∧ (s.receive c).rate = s.rate ∧ (s.receive c).tracker = s.tracker ∧ (s.receive c).decider = s.decider ∧
    (s.receive c).tables = s.tables ∧ (s.receive c).key = s.key ∧ (s.receive c).renderer = s.renderer ∧ (s.receive c).cue = s.cue ∧
    (s.receive c).ports = s.ports ∧ (s.receive c).due = s.due ∧ (s.receive c).draws = s.draws ∧ (s.receive c).pending = s.pending := by
  simp only [State.receive]; (repeat' split) <;> simp

@[simp] theorem State.awaitEdge_frame (s : State) :
    (s.awaitEdge).asp = s.asp ∧ (s.awaitEdge).rate = s.rate ∧ (s.awaitEdge).tracker = s.tracker ∧ (s.awaitEdge).decider = s.decider ∧
    (s.awaitEdge).tables = s.tables ∧ (s.awaitEdge).ctx = s.ctx ∧ (s.awaitEdge).matcher = s.matcher ∧ (s.awaitEdge).queue = s.queue ∧
    (s.awaitEdge).key = s.key ∧ (s.awaitEdge).copy = s.copy ∧ (s.awaitEdge).voices = s.voices ∧ (s.awaitEdge).renderer = s.renderer ∧
    (s.awaitEdge).cue = s.cue ∧ (s.awaitEdge).ports = s.ports ∧ (s.awaitEdge).fault = s.fault ∧ (s.awaitEdge).due = s.due ∧
    (s.awaitEdge).draws = s.draws ∧ (s.awaitEdge).pending = s.pending := by
  simp [State.awaitEdge]

@[simp] theorem State.character_frame (s : State) (s1 s2 s3 : BitVec 12) :
    (s.character s1 s2 s3).asp = s.asp ∧ (s.character s1 s2 s3).rate = s.rate ∧ (s.character s1 s2 s3).tracker = s.tracker ∧
    (s.character s1 s2 s3).decider = s.decider ∧ (s.character s1 s2 s3).tables = s.tables ∧ (s.character s1 s2 s3).key = s.key ∧
    (s.character s1 s2 s3).renderer = s.renderer ∧ (s.character s1 s2 s3).cue = s.cue ∧ (s.character s1 s2 s3).ports = s.ports ∧
    (s.character s1 s2 s3).due = s.due ∧ (s.character s1 s2 s3).draws = s.draws ∧ (s.character s1 s2 s3).pending = s.pending := by
  simp only [State.character]; (repeat' split) <;> simp

@[simp] theorem State.falseStart_frame (s : State) (s1 s2 s3 : Bool) :
    (s.falseStart s1 s2 s3).asp = s.asp ∧ (s.falseStart s1 s2 s3).rate = s.rate ∧ (s.falseStart s1 s2 s3).tracker = s.tracker ∧
    (s.falseStart s1 s2 s3).decider = s.decider ∧ (s.falseStart s1 s2 s3).tables = s.tables ∧ (s.falseStart s1 s2 s3).ctx = s.ctx ∧
    (s.falseStart s1 s2 s3).matcher = s.matcher ∧ (s.falseStart s1 s2 s3).queue = s.queue ∧ (s.falseStart s1 s2 s3).key = s.key ∧
    (s.falseStart s1 s2 s3).copy = s.copy ∧ (s.falseStart s1 s2 s3).voices = s.voices ∧ (s.falseStart s1 s2 s3).renderer = s.renderer ∧
    (s.falseStart s1 s2 s3).cue = s.cue ∧ (s.falseStart s1 s2 s3).ports = s.ports ∧ (s.falseStart s1 s2 s3).due = s.due ∧
    (s.falseStart s1 s2 s3).draws = s.draws ∧ (s.falseStart s1 s2 s3).pending = s.pending := by
  simp only [State.falseStart]; (repeat' split) <;> simp

@[simp] theorem State.lineBreak_frame (s : State) :
    (s.lineBreak).asp = s.asp ∧ (s.lineBreak).rate = s.rate ∧ (s.lineBreak).tracker = s.tracker ∧ (s.lineBreak).decider = s.decider ∧
    (s.lineBreak).tables = s.tables ∧ (s.lineBreak).key = s.key ∧ (s.lineBreak).renderer = s.renderer ∧ (s.lineBreak).cue = s.cue ∧
    (s.lineBreak).ports = s.ports ∧ (s.lineBreak).due = s.due ∧ (s.lineBreak).draws = s.draws ∧ (s.lineBreak).pending = s.pending := by
  simp only [State.lineBreak]; (repeat' split) <;> simp

@[simp] theorem State.matchOutcome_frame (s : State) (m : Match) :
    (s.matchOutcome m).asp = s.asp ∧ (s.matchOutcome m).rate = s.rate ∧ (s.matchOutcome m).tracker = s.tracker ∧
    (s.matchOutcome m).decider = s.decider ∧ (s.matchOutcome m).tables = s.tables ∧ (s.matchOutcome m).line = s.line ∧
    (s.matchOutcome m).key = s.key ∧ (s.matchOutcome m).renderer = s.renderer ∧ (s.matchOutcome m).cue = s.cue ∧
    (s.matchOutcome m).ports = s.ports ∧ (s.matchOutcome m).due = s.due ∧ (s.matchOutcome m).draws = s.draws ∧
    (s.matchOutcome m).pending = s.pending := by
  simp only [State.matchOutcome]; (repeat' split) <;> simp

@[simp] theorem State.matchEnd_frame (s : State) :
    (s.matchEnd).asp = s.asp ∧ (s.matchEnd).rate = s.rate ∧ (s.matchEnd).tracker = s.tracker ∧ (s.matchEnd).decider = s.decider ∧
    (s.matchEnd).tables = s.tables ∧ (s.matchEnd).key = s.key ∧ (s.matchEnd).renderer = s.renderer ∧ (s.matchEnd).cue = s.cue ∧
    (s.matchEnd).ports = s.ports ∧ (s.matchEnd).due = s.due ∧ (s.matchEnd).draws = s.draws ∧ (s.matchEnd).pending = s.pending := by
  simp only [State.matchEnd]; (repeat' split) <;> simp

@[simp] theorem State.disableLine_frame (s : State) :
    (s.disableLine).asp = s.asp ∧ (s.disableLine).rate = s.rate ∧ (s.disableLine).tracker = s.tracker ∧
    (s.disableLine).decider = s.decider ∧ (s.disableLine).tables = s.tables ∧ (s.disableLine).key = s.key ∧
    (s.disableLine).renderer = s.renderer ∧ (s.disableLine).cue = s.cue ∧ (s.disableLine).ports = s.ports ∧ (s.disableLine).due = s.due ∧
    (s.disableLine).draws = s.draws ∧ (s.disableLine).pending = s.pending := by
  simp [State.disableLine]

@[simp] theorem State.enableLine_frame (s : State) :
    (s.enableLine).asp = s.asp ∧ (s.enableLine).rate = s.rate ∧ (s.enableLine).tracker = s.tracker ∧ (s.enableLine).decider = s.decider ∧
    (s.enableLine).tables = s.tables ∧ (s.enableLine).key = s.key ∧ (s.enableLine).renderer = s.renderer ∧ (s.enableLine).cue = s.cue ∧
    (s.enableLine).ports = s.ports ∧ (s.enableLine).due = s.due ∧ (s.enableLine).draws = s.draws ∧ (s.enableLine).pending = s.pending := by
  simp [State.enableLine]

@[simp] theorem State.lineChanged_frame (s : State) (o : LineSettings) :
    (s.lineChanged o).asp = s.asp ∧ (s.lineChanged o).rate = s.rate ∧ (s.lineChanged o).tracker = s.tracker ∧
    (s.lineChanged o).decider = s.decider ∧ (s.lineChanged o).tables = s.tables ∧ (s.lineChanged o).key = s.key ∧
    (s.lineChanged o).renderer = s.renderer ∧ (s.lineChanged o).cue = s.cue ∧ (s.lineChanged o).ports = s.ports ∧
    (s.lineChanged o).due = s.due ∧ (s.lineChanged o).draws = s.draws ∧ (s.lineChanged o).pending = s.pending := by
  simp only [State.lineChanged]; (repeat' split) <;> simp

@[simp] theorem State.lineThresholds_frame (s : State) :
    (s.lineThresholds).asp = s.asp ∧ (s.lineThresholds).rate = s.rate ∧ (s.lineThresholds).tracker = s.tracker ∧
    (s.lineThresholds).decider = s.decider ∧ (s.lineThresholds).tables = s.tables ∧ (s.lineThresholds).key = s.key ∧
    (s.lineThresholds).renderer = s.renderer ∧ (s.lineThresholds).cue = s.cue ∧ (s.lineThresholds).ports = s.ports ∧
    (s.lineThresholds).due = s.due ∧ (s.lineThresholds).draws = s.draws ∧ (s.lineThresholds).pending = s.pending := by
  simp only [State.lineThresholds]; (repeat' split) <;> simp

@[simp] theorem State.rateLoss_frame (s : State) :
    (s.rateLoss).asp = s.asp ∧ (s.rateLoss).tables = s.tables ∧ (s.rateLoss).ctx = s.ctx ∧ (s.rateLoss).line = s.line ∧
    (s.rateLoss).matcher = s.matcher ∧ (s.rateLoss).queue = s.queue ∧ (s.rateLoss).key = s.key ∧ (s.rateLoss).copy = s.copy ∧
    (s.rateLoss).cue = s.cue ∧ (s.rateLoss).ports = s.ports ∧ (s.rateLoss).due = s.due ∧ (s.rateLoss).draws = s.draws ∧
    (s.rateLoss).pending = s.pending := by
  simp [State.rateLoss]

@[simp] theorem State.measureAcquiring_frame (s : State) (m : Nat) :
    (s.measureAcquiring m).1.asp = s.asp ∧ (s.measureAcquiring m).1.tracker = s.tracker ∧ (s.measureAcquiring m).1.decider = s.decider ∧
    (s.measureAcquiring m).1.tables = s.tables ∧ (s.measureAcquiring m).1.ctx = s.ctx ∧ (s.measureAcquiring m).1.line = s.line ∧
    (s.measureAcquiring m).1.matcher = s.matcher ∧ (s.measureAcquiring m).1.queue = s.queue ∧ (s.measureAcquiring m).1.key = s.key ∧
    (s.measureAcquiring m).1.copy = s.copy ∧ (s.measureAcquiring m).1.voices = s.voices ∧ (s.measureAcquiring m).1.renderer = s.renderer ∧
    (s.measureAcquiring m).1.cue = s.cue ∧ (s.measureAcquiring m).1.ports = s.ports ∧ (s.measureAcquiring m).1.due = s.due ∧
    (s.measureAcquiring m).1.draws = s.draws ∧ (s.measureAcquiring m).1.pending = s.pending := by
  simp only [State.measureAcquiring]; (repeat' split) <;> simp

@[simp] theorem State.measureLocked_frame (s : State) (m : Nat) :
    (s.measureLocked m).1.asp = s.asp ∧ (s.measureLocked m).1.tables = s.tables ∧ (s.measureLocked m).1.ctx = s.ctx ∧
    (s.measureLocked m).1.line = s.line ∧ (s.measureLocked m).1.matcher = s.matcher ∧ (s.measureLocked m).1.queue = s.queue ∧
    (s.measureLocked m).1.key = s.key ∧ (s.measureLocked m).1.copy = s.copy ∧ (s.measureLocked m).1.cue = s.cue ∧
    (s.measureLocked m).1.ports = s.ports ∧ (s.measureLocked m).1.due = s.due ∧ (s.measureLocked m).1.draws = s.draws ∧
    (s.measureLocked m).1.pending = s.pending := by
  simp only [State.measureLocked]; (repeat' split) <;> simp

@[simp] theorem State.measure_frame (s : State) (m : Nat) :
    (s.measure m).1.asp = s.asp ∧ (s.measure m).1.tables = s.tables ∧ (s.measure m).1.ctx = s.ctx ∧ (s.measure m).1.line = s.line ∧
    (s.measure m).1.matcher = s.matcher ∧ (s.measure m).1.queue = s.queue ∧ (s.measure m).1.key = s.key ∧ (s.measure m).1.copy = s.copy ∧
    (s.measure m).1.cue = s.cue ∧ (s.measure m).1.ports = s.ports ∧ (s.measure m).1.due = s.due ∧ (s.measure m).1.draws = s.draws ∧
    (s.measure m).1.pending = s.pending := by
  simp only [State.measure]; (repeat' split) <;> simp

@[simp] theorem State.rateAbsence_frame (s : State) :
    (s.rateAbsence).asp = s.asp ∧ (s.rateAbsence).tables = s.tables ∧ (s.rateAbsence).ctx = s.ctx ∧ (s.rateAbsence).line = s.line ∧
    (s.rateAbsence).matcher = s.matcher ∧ (s.rateAbsence).queue = s.queue ∧ (s.rateAbsence).key = s.key ∧ (s.rateAbsence).copy = s.copy ∧
    (s.rateAbsence).cue = s.cue ∧ (s.rateAbsence).ports = s.ports ∧ (s.rateAbsence).due = s.due ∧ (s.rateAbsence).draws = s.draws ∧
    (s.rateAbsence).pending = s.pending := by
  simp only [State.rateAbsence]; (repeat' split) <;> simp

@[simp] theorem State.takeLearn_frame (s : State) :
    (s.takeLearn).asp = s.asp ∧ (s.takeLearn).rate = s.rate ∧ (s.takeLearn).decider = s.decider ∧ (s.takeLearn).tables = s.tables ∧
    (s.takeLearn).ctx = s.ctx ∧ (s.takeLearn).line = s.line ∧ (s.takeLearn).matcher = s.matcher ∧ (s.takeLearn).queue = s.queue ∧
    (s.takeLearn).key = s.key ∧ (s.takeLearn).copy = s.copy ∧ (s.takeLearn).voices = s.voices ∧ (s.takeLearn).renderer = s.renderer ∧
    (s.takeLearn).cue = s.cue ∧ (s.takeLearn).ports = s.ports ∧ (s.takeLearn).draws = s.draws ∧ (s.takeLearn).pending = s.pending := by
  simp only [State.takeLearn]; (repeat' split) <;> simp

@[simp] theorem State.takeHowl_frame (s : State) :
    (s.takeHowl).asp = s.asp ∧ (s.takeHowl).rate = s.rate ∧ (s.takeHowl).tracker = s.tracker ∧ (s.takeHowl).decider = s.decider ∧
    (s.takeHowl).tables = s.tables ∧ (s.takeHowl).ctx = s.ctx ∧ (s.takeHowl).line = s.line ∧ (s.takeHowl).matcher = s.matcher ∧
    (s.takeHowl).queue = s.queue ∧ (s.takeHowl).key = s.key ∧ (s.takeHowl).copy = s.copy ∧ (s.takeHowl).renderer = s.renderer ∧
    (s.takeHowl).cue = s.cue ∧ (s.takeHowl).ports = s.ports ∧ (s.takeHowl).draws = s.draws ∧ (s.takeHowl).pending = s.pending := by
  simp only [State.takeHowl]; (repeat' split) <;> simp

@[simp] theorem State.takeRecovery_frame (s : State) :
    (s.takeRecovery).asp = s.asp ∧ (s.takeRecovery).rate = s.rate ∧ (s.takeRecovery).tracker = s.tracker ∧
    (s.takeRecovery).decider = s.decider ∧ (s.takeRecovery).tables = s.tables ∧ (s.takeRecovery).ctx = s.ctx ∧
    (s.takeRecovery).line = s.line ∧ (s.takeRecovery).matcher = s.matcher ∧ (s.takeRecovery).queue = s.queue ∧
    (s.takeRecovery).key = s.key ∧ (s.takeRecovery).copy = s.copy ∧ (s.takeRecovery).renderer = s.renderer ∧ (s.takeRecovery).cue = s.cue ∧
    (s.takeRecovery).ports = s.ports ∧ (s.takeRecovery).draws = s.draws ∧ (s.takeRecovery).pending = s.pending := by
  simp only [State.takeRecovery]; (repeat' split) <;> simp

@[simp] theorem State.takeNoteStart_frame (s : State) :
    (s.takeNoteStart).asp = s.asp ∧ (s.takeNoteStart).rate = s.rate ∧ (s.takeNoteStart).tracker = s.tracker ∧
    (s.takeNoteStart).decider = s.decider ∧ (s.takeNoteStart).tables = s.tables ∧ (s.takeNoteStart).line = s.line ∧
    (s.takeNoteStart).key = s.key ∧ (s.takeNoteStart).renderer = s.renderer ∧ (s.takeNoteStart).ports = s.ports ∧
    (s.takeNoteStart).draws = s.draws ∧ (s.takeNoteStart).pending = s.pending := by
  simp only [State.takeNoteStart]; (repeat' split) <;> simp

@[simp] theorem State.takeNoteOff_frame (s : State) :
    (s.takeNoteOff).asp = s.asp ∧ (s.takeNoteOff).rate = s.rate ∧ (s.takeNoteOff).tracker = s.tracker ∧
    (s.takeNoteOff).decider = s.decider ∧ (s.takeNoteOff).tables = s.tables ∧ (s.takeNoteOff).line = s.line ∧
    (s.takeNoteOff).matcher = s.matcher ∧ (s.takeNoteOff).key = s.key ∧ (s.takeNoteOff).renderer = s.renderer ∧
    (s.takeNoteOff).cue = s.cue ∧ (s.takeNoteOff).ports = s.ports ∧ (s.takeNoteOff).fault = s.fault ∧ (s.takeNoteOff).draws = s.draws ∧
    (s.takeNoteOff).pending = s.pending := by
  simp only [State.takeNoteOff]; (repeat' split) <;> simp

@[simp] theorem State.takeEvaluation_frame (s : State) :
    (s.takeEvaluation).asp = s.asp ∧ (s.takeEvaluation).rate = s.rate ∧ (s.takeEvaluation).tracker = s.tracker ∧
    (s.takeEvaluation).decider = s.decider ∧ (s.takeEvaluation).tables = s.tables ∧ (s.takeEvaluation).ctx = s.ctx ∧
    (s.takeEvaluation).line = s.line ∧ (s.takeEvaluation).matcher = s.matcher ∧ (s.takeEvaluation).queue = s.queue ∧
    (s.takeEvaluation).copy = s.copy ∧ (s.takeEvaluation).voices = s.voices ∧ (s.takeEvaluation).renderer = s.renderer ∧
    (s.takeEvaluation).cue = s.cue ∧ (s.takeEvaluation).ports = s.ports ∧ (s.takeEvaluation).fault = s.fault ∧
    (s.takeEvaluation).draws = s.draws ∧ (s.takeEvaluation).pending = s.pending := by
  simp only [State.takeEvaluation]; split <;> simp

@[simp] theorem State.takeDwell_frame (s : State) :
    (s.takeDwell).asp = s.asp ∧ (s.takeDwell).rate = s.rate ∧ (s.takeDwell).tracker = s.tracker ∧ (s.takeDwell).decider = s.decider ∧
    (s.takeDwell).tables = s.tables ∧ (s.takeDwell).line = s.line ∧ (s.takeDwell).key = s.key ∧ (s.takeDwell).renderer = s.renderer ∧
    (s.takeDwell).ports = s.ports ∧ (s.takeDwell).draws = s.draws ∧ (s.takeDwell).pending = s.pending := by
  simp only [State.takeDwell]; (repeat' split) <;> simp

@[simp] theorem State.takeSilence_frame (s : State) :
    (s.takeSilence).asp = s.asp ∧ (s.takeSilence).rate = s.rate ∧ (s.takeSilence).tracker = s.tracker ∧
    (s.takeSilence).decider = s.decider ∧ (s.takeSilence).tables = s.tables ∧ (s.takeSilence).key = s.key ∧
    (s.takeSilence).renderer = s.renderer ∧ (s.takeSilence).cue = s.cue ∧ (s.takeSilence).ports = s.ports ∧
    (s.takeSilence).draws = s.draws ∧ (s.takeSilence).pending = s.pending := by
  simp only [State.takeSilence]; (repeat' split) <;> simp

@[simp] theorem State.takeFadeStep_frame (s : State) :
    (s.takeFadeStep).asp = s.asp ∧ (s.takeFadeStep).rate = s.rate ∧ (s.takeFadeStep).tracker = s.tracker ∧
    (s.takeFadeStep).decider = s.decider ∧ (s.takeFadeStep).tables = s.tables ∧ (s.takeFadeStep).ctx = s.ctx ∧
    (s.takeFadeStep).line = s.line ∧ (s.takeFadeStep).matcher = s.matcher ∧ (s.takeFadeStep).queue = s.queue ∧
    (s.takeFadeStep).key = s.key ∧ (s.takeFadeStep).copy = s.copy ∧ (s.takeFadeStep).cue = s.cue ∧ (s.takeFadeStep).ports = s.ports ∧
    (s.takeFadeStep).fault = s.fault ∧ (s.takeFadeStep).draws = s.draws ∧ (s.takeFadeStep).pending = s.pending := by
  simp only [State.takeFadeStep]; (repeat' split) <;> simp

@[simp] theorem State.takeRender_frame (s : State) :
    (s.takeRender).asp = s.asp ∧ (s.takeRender).rate = s.rate ∧ (s.takeRender).tracker = s.tracker ∧ (s.takeRender).decider = s.decider ∧
    (s.takeRender).tables = s.tables ∧ (s.takeRender).ctx = s.ctx ∧ (s.takeRender).line = s.line ∧ (s.takeRender).matcher = s.matcher ∧
    (s.takeRender).queue = s.queue ∧ (s.takeRender).key = s.key ∧ (s.takeRender).copy = s.copy ∧ (s.takeRender).renderer = s.renderer ∧
    (s.takeRender).cue = s.cue ∧ (s.takeRender).ports = s.ports ∧ (s.takeRender).fault = s.fault ∧ (s.takeRender).draws = s.draws ∧
    (s.takeRender).pending = s.pending := by
  simp only [State.takeRender]; (repeat' split) <;> simp

@[simp] theorem State.completeFirst_frame (s : State) :
    (s.completeFirst).asp = s.asp ∧ (s.completeFirst).rate = s.rate ∧ (s.completeFirst).decider = s.decider ∧
    (s.completeFirst).tables = s.tables ∧ (s.completeFirst).line = s.line ∧ (s.completeFirst).key = s.key ∧
    (s.completeFirst).renderer = s.renderer ∧ (s.completeFirst).ports = s.ports ∧ (s.completeFirst).draws = s.draws ∧
    (s.completeFirst).pending = s.pending := by
  simp [State.completeFirst]

@[simp] theorem State.completeLast_frame (s : State) :
    (s.completeLast).asp = s.asp ∧ (s.completeLast).rate = s.rate ∧ (s.completeLast).tracker = s.tracker ∧
    (s.completeLast).decider = s.decider ∧ (s.completeLast).tables = s.tables ∧ (s.completeLast).key = s.key ∧
    (s.completeLast).ports = s.ports ∧ (s.completeLast).draws = s.draws ∧ (s.completeLast).pending = s.pending := by
  simp [State.completeLast]

@[simp] theorem State.evaluated_frame (s : State) :
    (s.evaluated).asp = s.asp ∧ (s.evaluated).rate = s.rate ∧ (s.evaluated).decider = s.decider ∧ (s.evaluated).tables = s.tables ∧
    (s.evaluated).ports = s.ports ∧ (s.evaluated).draws = s.draws ∧ (s.evaluated).pending = s.pending := by
  simp [State.evaluated]

@[simp] theorem State.completeButDecay_frame (s : State) :
    (s.completeButDecay).asp = s.asp ∧ (s.completeButDecay).rate = s.rate ∧ (s.completeButDecay).decider = s.decider ∧
    (s.completeButDecay).tables = s.tables ∧ (s.completeButDecay).key = s.key ∧ (s.completeButDecay).ports = s.ports ∧
    (s.completeButDecay).draws = s.draws ∧ (s.completeButDecay).pending = s.pending := by
  simp [State.completeButDecay]

@[simp] theorem State.complete_frame (s : State) :
    (s.complete).asp = s.asp ∧ (s.complete).rate = s.rate ∧ (s.complete).decider = s.decider ∧ (s.complete).tables = s.tables ∧
    (s.complete).ports = s.ports ∧ (s.complete).draws = s.draws ∧ (s.complete).pending = s.pending := by
  simp [State.complete]

@[simp] theorem State.releaseProposal_frame (s : State) :
    (s.releaseProposal).asp = s.asp ∧ (s.releaseProposal).rate = s.rate ∧ (s.releaseProposal).tracker = s.tracker ∧
    (s.releaseProposal).decider = s.decider ∧ (s.releaseProposal).tables = s.tables ∧ (s.releaseProposal).line = s.line ∧
    (s.releaseProposal).matcher = s.matcher ∧ (s.releaseProposal).queue = s.queue ∧ (s.releaseProposal).key = s.key ∧
    (s.releaseProposal).renderer = s.renderer ∧ (s.releaseProposal).cue = s.cue ∧ (s.releaseProposal).ports = s.ports ∧
    (s.releaseProposal).draws = s.draws ∧ (s.releaseProposal).pending = s.pending := by
  simp only [State.releaseProposal]; split <;> simp

@[simp] theorem State.decayRow_frame (s : State) :
    (s.decayRow).asp = s.asp ∧ (s.decayRow).rate = s.rate ∧ (s.decayRow).tracker = s.tracker ∧ (s.decayRow).decider = s.decider ∧
    (s.decayRow).tables = s.tables ∧ (s.decayRow).line = s.line ∧ (s.decayRow).matcher = s.matcher ∧ (s.decayRow).queue = s.queue ∧
    (s.decayRow).renderer = s.renderer ∧ (s.decayRow).cue = s.cue ∧ (s.decayRow).ports = s.ports ∧ (s.decayRow).draws = s.draws ∧
    (s.decayRow).pending = s.pending := by
  simp only [State.decayRow]; split <;> simp

@[simp] theorem State.settleRow_frame (s : State) :
    (s.settleRow).asp = s.asp ∧ (s.settleRow).rate = s.rate ∧ (s.settleRow).tracker = s.tracker ∧
    (s.settleRow).decider = s.decider ∧ (s.settleRow).tables = s.tables ∧ (s.settleRow).line = s.line ∧
    (s.settleRow).key = s.key ∧ (s.settleRow).renderer = s.renderer ∧ (s.settleRow).ports = s.ports ∧
    (s.settleRow).draws = s.draws ∧ (s.settleRow).pending = s.pending := by
  simp only [State.settleRow]; split <;> simp

@[simp] theorem State.dwellRow_frame (s : State) :
    (s.dwellRow).asp = s.asp ∧ (s.dwellRow).rate = s.rate ∧ (s.dwellRow).tracker = s.tracker ∧ (s.dwellRow).decider = s.decider ∧
    (s.dwellRow).tables = s.tables ∧ (s.dwellRow).line = s.line ∧ (s.dwellRow).key = s.key ∧ (s.dwellRow).renderer = s.renderer ∧
    (s.dwellRow).ports = s.ports ∧ (s.dwellRow).draws = s.draws ∧ (s.dwellRow).pending = s.pending := by
  simp only [State.dwellRow]; split <;> simp

@[simp] theorem State.takeBoundary_frame (s : State) (i : Fin 4) :
    (s.takeBoundary i).asp = s.asp ∧ (s.takeBoundary i).rate = s.rate ∧ (s.takeBoundary i).tracker = s.tracker ∧
    (s.takeBoundary i).decider = s.decider ∧ (s.takeBoundary i).tables = s.tables ∧ (s.takeBoundary i).ctx = s.ctx ∧
    (s.takeBoundary i).line = s.line ∧ (s.takeBoundary i).matcher = s.matcher ∧ (s.takeBoundary i).queue = s.queue ∧
    (s.takeBoundary i).key = s.key ∧ (s.takeBoundary i).copy = s.copy ∧ (s.takeBoundary i).renderer = s.renderer ∧
    (s.takeBoundary i).cue = s.cue ∧ (s.takeBoundary i).ports = s.ports ∧ (s.takeBoundary i).fault = s.fault ∧
    (s.takeBoundary i).due = s.due ∧ (s.takeBoundary i).draws = s.draws ∧ (s.takeBoundary i).pending = s.pending := by
  simp [State.takeBoundary]

@[simp] theorem State.takeBoundaries_frame (s : State) :
    (s.takeBoundaries).asp = s.asp ∧ (s.takeBoundaries).rate = s.rate ∧ (s.takeBoundaries).tracker = s.tracker ∧
    (s.takeBoundaries).decider = s.decider ∧ (s.takeBoundaries).tables = s.tables ∧ (s.takeBoundaries).ctx = s.ctx ∧
    (s.takeBoundaries).line = s.line ∧ (s.takeBoundaries).matcher = s.matcher ∧ (s.takeBoundaries).queue = s.queue ∧
    (s.takeBoundaries).key = s.key ∧ (s.takeBoundaries).copy = s.copy ∧ (s.takeBoundaries).renderer = s.renderer ∧
    (s.takeBoundaries).cue = s.cue ∧ (s.takeBoundaries).ports = s.ports ∧ (s.takeBoundaries).fault = s.fault ∧
    (s.takeBoundaries).due = s.due ∧ (s.takeBoundaries).draws = s.draws ∧ (s.takeBoundaries).pending = s.pending := by
  simp [State.takeBoundaries]

@[simp] theorem State.countFade_frame (s : State) :
    (s.countFade).asp = s.asp ∧ (s.countFade).rate = s.rate ∧ (s.countFade).tracker = s.tracker ∧ (s.countFade).decider = s.decider ∧
    (s.countFade).tables = s.tables ∧ (s.countFade).ctx = s.ctx ∧ (s.countFade).line = s.line ∧ (s.countFade).matcher = s.matcher ∧
    (s.countFade).queue = s.queue ∧ (s.countFade).key = s.key ∧ (s.countFade).copy = s.copy ∧ (s.countFade).voices = s.voices ∧
    (s.countFade).cue = s.cue ∧ (s.countFade).ports = s.ports ∧ (s.countFade).fault = s.fault ∧ (s.countFade).draws = s.draws ∧
    (s.countFade).pending = s.pending := by
  simp only [State.countFade]; (repeat' split) <;> simp

@[simp] theorem State.beginFrame_frame (s : State) :
    (s.beginFrame).tracker = s.tracker ∧ (s.beginFrame).decider = s.decider ∧ (s.beginFrame).tables = s.tables ∧
    (s.beginFrame).ctx = s.ctx ∧ (s.beginFrame).line = s.line ∧ (s.beginFrame).matcher = s.matcher ∧ (s.beginFrame).queue = s.queue ∧
    (s.beginFrame).key = s.key ∧ (s.beginFrame).copy = s.copy ∧ (s.beginFrame).voices = s.voices ∧ (s.beginFrame).cue = s.cue ∧
    (s.beginFrame).ports = s.ports ∧ (s.beginFrame).fault = s.fault ∧ (s.beginFrame).due = s.due ∧ (s.beginFrame).draws = s.draws ∧
    (s.beginFrame).pending = s.pending := by
  simp [State.beginFrame]

@[simp] theorem State.moveSamples_frame (s : State) (w : SlotWord) (b : Nat) :
    (s.moveSamples w b).rate = s.rate ∧ (s.moveSamples w b).decider = s.decider ∧ (s.moveSamples w b).tables = s.tables ∧
    (s.moveSamples w b).ctx = s.ctx ∧ (s.moveSamples w b).line = s.line ∧ (s.moveSamples w b).matcher = s.matcher ∧
    (s.moveSamples w b).queue = s.queue ∧ (s.moveSamples w b).key = s.key ∧ (s.moveSamples w b).copy = s.copy ∧
    (s.moveSamples w b).voices = s.voices ∧ (s.moveSamples w b).renderer = s.renderer ∧ (s.moveSamples w b).cue = s.cue ∧
    (s.moveSamples w b).ports = s.ports ∧ (s.moveSamples w b).fault = s.fault ∧ (s.moveSamples w b).due = s.due ∧
    (s.moveSamples w b).pending = s.pending := by
  simp [State.moveSamples]

@[simp] theorem State.learnReport_frame (s : State) (r : Report) :
    (s.learnReport r).asp = s.asp ∧ (s.learnReport r).rate = s.rate ∧ (s.learnReport r).decider = s.decider ∧
    (s.learnReport r).tables = s.tables ∧ (s.learnReport r).ctx = s.ctx ∧ (s.learnReport r).line = s.line ∧
    (s.learnReport r).matcher = s.matcher ∧ (s.learnReport r).queue = s.queue ∧ (s.learnReport r).key = s.key ∧
    (s.learnReport r).copy = s.copy ∧ (s.learnReport r).voices = s.voices ∧ (s.learnReport r).renderer = s.renderer ∧
    (s.learnReport r).cue = s.cue ∧ (s.learnReport r).ports = s.ports ∧ (s.learnReport r).fault = s.fault ∧
    (s.learnReport r).draws = s.draws ∧ (s.learnReport r).pending = s.pending := by
  simp [State.learnReport]

@[simp] theorem State.decideReport_frame (s : State) (r : Report) :
    (s.decideReport r).asp = s.asp ∧ (s.decideReport r).rate = s.rate ∧ (s.decideReport r).tracker = s.tracker ∧
    (s.decideReport r).tables = s.tables ∧ (s.decideReport r).ctx = s.ctx ∧ (s.decideReport r).line = s.line ∧
    (s.decideReport r).matcher = s.matcher ∧ (s.decideReport r).queue = s.queue ∧ (s.decideReport r).key = s.key ∧
    (s.decideReport r).copy = s.copy ∧ (s.decideReport r).voices = s.voices ∧ (s.decideReport r).renderer = s.renderer ∧
    (s.decideReport r).cue = s.cue ∧ (s.decideReport r).ports = s.ports ∧ (s.decideReport r).draws = s.draws ∧
    (s.decideReport r).pending = s.pending := by
  simp only [State.decideReport]; (repeat' split) <;> simp

@[simp] theorem State.followReport_frame (s : State) (r : Report) :
    (s.followReport r).asp = s.asp ∧ (s.followReport r).rate = s.rate ∧ (s.followReport r).tracker = s.tracker ∧
    (s.followReport r).decider = s.decider ∧ (s.followReport r).tables = s.tables ∧ (s.followReport r).ctx = s.ctx ∧
    (s.followReport r).line = s.line ∧ (s.followReport r).matcher = s.matcher ∧ (s.followReport r).queue = s.queue ∧
    (s.followReport r).copy = s.copy ∧ (s.followReport r).voices = s.voices ∧ (s.followReport r).cue = s.cue ∧
    (s.followReport r).ports = s.ports ∧ (s.followReport r).fault = s.fault ∧ (s.followReport r).due = s.due ∧
    (s.followReport r).draws = s.draws ∧ (s.followReport r).pending = s.pending := by
  simp [State.followReport]

@[simp] theorem State.howlReport_frame (s : State) (r : Report) :
    (s.howlReport r).asp = s.asp ∧ (s.howlReport r).rate = s.rate ∧ (s.howlReport r).tracker = s.tracker ∧
    (s.howlReport r).decider = s.decider ∧ (s.howlReport r).tables = s.tables ∧ (s.howlReport r).ctx = s.ctx ∧
    (s.howlReport r).line = s.line ∧ (s.howlReport r).matcher = s.matcher ∧ (s.howlReport r).queue = s.queue ∧
    (s.howlReport r).key = s.key ∧ (s.howlReport r).copy = s.copy ∧ (s.howlReport r).voices = s.voices ∧
    (s.howlReport r).renderer = s.renderer ∧ (s.howlReport r).cue = s.cue ∧ (s.howlReport r).ports = s.ports ∧
    (s.howlReport r).draws = s.draws ∧ (s.howlReport r).pending = s.pending := by
  simp [State.howlReport]

@[simp] theorem State.report_frame (s : State) (a : Analysis) :
    (s.report a).asp = s.asp ∧ (s.report a).rate = s.rate ∧ (s.report a).tables = s.tables ∧ (s.report a).ctx = s.ctx ∧
    (s.report a).line = s.line ∧ (s.report a).matcher = s.matcher ∧ (s.report a).queue = s.queue ∧ (s.report a).copy = s.copy ∧
    (s.report a).voices = s.voices ∧ (s.report a).cue = s.cue ∧ (s.report a).ports = s.ports ∧ (s.report a).draws = s.draws ∧
    (s.report a).pending = s.pending := by
  simp [State.report]

@[simp] theorem State.hopRendering_frame (s : State) (a : Analysis) (o : RenderOrder) :
    (s.hopRendering a o).asp = s.asp ∧ (s.hopRendering a o).rate = s.rate ∧ (s.hopRendering a o).tables = s.tables ∧
    (s.hopRendering a o).ctx = s.ctx ∧ (s.hopRendering a o).line = s.line ∧ (s.hopRendering a o).matcher = s.matcher ∧
    (s.hopRendering a o).queue = s.queue ∧ (s.hopRendering a o).copy = s.copy ∧ (s.hopRendering a o).cue = s.cue ∧
    (s.hopRendering a o).ports = s.ports ∧ (s.hopRendering a o).draws = s.draws ∧ (s.hopRendering a o).pending = s.pending := by
  simp only [State.hopRendering]; (repeat' split) <;> simp

@[simp] theorem State.hopCounts_frame (s : State) :
    (s.hopCounts).asp = s.asp ∧ (s.hopCounts).rate = s.rate ∧ (s.hopCounts).tracker = s.tracker ∧ (s.hopCounts).decider = s.decider ∧
    (s.hopCounts).tables = s.tables ∧ (s.hopCounts).ctx = s.ctx ∧ (s.hopCounts).matcher = s.matcher ∧ (s.hopCounts).queue = s.queue ∧
    (s.hopCounts).copy = s.copy ∧ (s.hopCounts).voices = s.voices ∧ (s.hopCounts).renderer = s.renderer ∧ (s.hopCounts).ports = s.ports ∧
    (s.hopCounts).fault = s.fault ∧ (s.hopCounts).draws = s.draws ∧ (s.hopCounts).pending = s.pending := by
  simp [State.hopCounts]

@[simp] theorem State.recoveryHop_frame (s : State) :
    (s.recoveryHop).asp = s.asp ∧ (s.recoveryHop).rate = s.rate ∧ (s.recoveryHop).tracker = s.tracker ∧
    (s.recoveryHop).decider = s.decider ∧ (s.recoveryHop).tables = s.tables ∧ (s.recoveryHop).ctx = s.ctx ∧ (s.recoveryHop).line = s.line ∧
    (s.recoveryHop).matcher = s.matcher ∧ (s.recoveryHop).queue = s.queue ∧ (s.recoveryHop).key = s.key ∧ (s.recoveryHop).copy = s.copy ∧
    (s.recoveryHop).voices = s.voices ∧ (s.recoveryHop).renderer = s.renderer ∧ (s.recoveryHop).cue = s.cue ∧
    (s.recoveryHop).ports = s.ports ∧ (s.recoveryHop).draws = s.draws ∧ (s.recoveryHop).pending = s.pending := by
  simp [State.recoveryHop]

@[simp] theorem State.hop_frame (s : State) (a : Analysis) (o : RenderOrder) :
    (s.hop a o).asp = s.asp ∧ (s.hop a o).rate = s.rate ∧ (s.hop a o).tables = s.tables ∧ (s.hop a o).ctx = s.ctx ∧
    (s.hop a o).matcher = s.matcher ∧ (s.hop a o).queue = s.queue ∧ (s.hop a o).copy = s.copy ∧ (s.hop a o).ports = s.ports ∧
    (s.hop a o).draws = s.draws ∧ (s.hop a o).pending = s.pending := by
  simp [State.hop]

@[simp] theorem State.nextFrame_frame (s : State) (w : SlotWord) (b : Nat) :
    (s.nextFrame w b).decider = s.decider ∧ (s.nextFrame w b).tables = s.tables ∧ (s.nextFrame w b).ctx = s.ctx ∧
    (s.nextFrame w b).line = s.line ∧ (s.nextFrame w b).matcher = s.matcher ∧ (s.nextFrame w b).queue = s.queue ∧
    (s.nextFrame w b).key = s.key ∧ (s.nextFrame w b).copy = s.copy ∧ (s.nextFrame w b).cue = s.cue ∧ (s.nextFrame w b).ports = s.ports ∧
    (s.nextFrame w b).fault = s.fault ∧ (s.nextFrame w b).pending = s.pending := by
  simp [State.nextFrame]

@[simp] theorem State.absence_frame (s : State) :
    (s.absence).tables = s.tables ∧ (s.absence).ctx = s.ctx ∧ (s.absence).line = s.line ∧ (s.absence).matcher = s.matcher ∧
    (s.absence).queue = s.queue ∧ (s.absence).key = s.key ∧ (s.absence).copy = s.copy ∧ (s.absence).cue = s.cue ∧
    (s.absence).ports = s.ports ∧ (s.absence).due = s.due ∧ (s.absence).draws = s.draws ∧ (s.absence).pending = s.pending := by
  simp only [State.absence]; (repeat' split) <;> simp

@[simp] theorem State.measurement_frame (s : State) (m : Nat) (a : Analysis) (o : RenderOrder) :
    (s.measurement m a o).asp = s.asp ∧ (s.measurement m a o).tables = s.tables ∧ (s.measurement m a o).ctx = s.ctx ∧
    (s.measurement m a o).matcher = s.matcher ∧ (s.measurement m a o).queue = s.queue ∧ (s.measurement m a o).copy = s.copy ∧
    (s.measurement m a o).ports = s.ports ∧ (s.measurement m a o).draws = s.draws ∧ (s.measurement m a o).pending = s.pending := by
  simp only [State.measurement]; (repeat' split) <;> simp

@[simp] theorem State.stageLoad_frame (s : State) (k : Fin 16) (p : Plan) (h : Handing) :
    (s.stageLoad k p h).asp = s.asp ∧ (s.stageLoad k p h).rate = s.rate ∧ (s.stageLoad k p h).tracker = s.tracker ∧
    (s.stageLoad k p h).decider = s.decider ∧ (s.stageLoad k p h).tables = s.tables ∧ (s.stageLoad k p h).ctx = s.ctx ∧
    (s.stageLoad k p h).line = s.line ∧ (s.stageLoad k p h).matcher = s.matcher ∧ (s.stageLoad k p h).queue = s.queue ∧
    (s.stageLoad k p h).key = s.key ∧ (s.stageLoad k p h).copy = s.copy ∧ (s.stageLoad k p h).renderer = s.renderer ∧
    (s.stageLoad k p h).cue = s.cue ∧ (s.stageLoad k p h).ports = s.ports ∧ (s.stageLoad k p h).fault = s.fault ∧
    (s.stageLoad k p h).due = s.due ∧ (s.stageLoad k p h).draws = s.draws ∧ (s.stageLoad k p h).pending = s.pending := by
  simp [State.stageLoad]

@[simp] theorem State.resetRuntime_frame (s : State) :
    (s.resetRuntime).asp = s.asp ∧ (s.resetRuntime).rate = s.rate ∧ (s.resetRuntime).tables = s.tables ∧ (s.resetRuntime).ports = s.ports ∧
    (s.resetRuntime).draws = s.draws ∧ (s.resetRuntime).pending = s.pending := by
  simp [State.resetRuntime]

@[simp] theorem State.handOff_frame (s : State) :
    (s.handOff).asp = s.asp ∧ (s.handOff).rate = s.rate ∧ (s.handOff).tracker = s.tracker ∧ (s.handOff).decider = s.decider ∧
    (s.handOff).tables = s.tables ∧ (s.handOff).line = s.line ∧ (s.handOff).matcher = s.matcher ∧ (s.handOff).queue = s.queue ∧
    (s.handOff).key = s.key ∧ (s.handOff).renderer = s.renderer ∧ (s.handOff).cue = s.cue ∧ (s.handOff).ports = s.ports ∧
    (s.handOff).fault = s.fault ∧ (s.handOff).due = s.due ∧ (s.handOff).draws = s.draws ∧ (s.handOff).pending = s.pending := by
  simp [State.handOff]

@[simp] theorem State.releaseRefused_frame (s : State) (sel : Select) :
    (s.releaseRefused sel).asp = s.asp ∧ (s.releaseRefused sel).rate = s.rate ∧ (s.releaseRefused sel).tracker = s.tracker ∧
    (s.releaseRefused sel).decider = s.decider ∧ (s.releaseRefused sel).tables = s.tables ∧ (s.releaseRefused sel).ctx = s.ctx ∧
    (s.releaseRefused sel).line = s.line ∧ (s.releaseRefused sel).matcher = s.matcher ∧ (s.releaseRefused sel).queue = s.queue ∧
    (s.releaseRefused sel).key = s.key ∧ (s.releaseRefused sel).copy = s.copy ∧ (s.releaseRefused sel).voices = s.voices ∧
    (s.releaseRefused sel).renderer = s.renderer ∧ (s.releaseRefused sel).cue = s.cue ∧ (s.releaseRefused sel).fault = s.fault ∧
    (s.releaseRefused sel).due = s.due ∧ (s.releaseRefused sel).draws = s.draws ∧ (s.releaseRefused sel).pending = s.pending := by
  simp only [State.releaseRefused]; (repeat' split) <;> simp

@[simp] theorem State.freePort_frame (s : State) (d : List Byte) :
    (s.freePort d).asp = s.asp ∧ (s.freePort d).rate = s.rate ∧ (s.freePort d).tracker = s.tracker ∧ (s.freePort d).decider = s.decider ∧
    (s.freePort d).tables = s.tables ∧ (s.freePort d).ctx = s.ctx ∧ (s.freePort d).line = s.line ∧ (s.freePort d).matcher = s.matcher ∧
    (s.freePort d).queue = s.queue ∧ (s.freePort d).key = s.key ∧ (s.freePort d).copy = s.copy ∧ (s.freePort d).voices = s.voices ∧
    (s.freePort d).renderer = s.renderer ∧ (s.freePort d).cue = s.cue ∧ (s.freePort d).fault = s.fault ∧ (s.freePort d).due = s.due ∧
    (s.freePort d).draws = s.draws ∧ (s.freePort d).pending = s.pending := by
  simp [State.freePort]

@[simp] theorem State.switchWrite_frame (s : State) (w m : BitVec 8) :
    (s.switchWrite w m).1.asp = s.asp ∧ (s.switchWrite w m).1.rate = s.rate ∧ (s.switchWrite w m).1.tracker = s.tracker ∧
    (s.switchWrite w m).1.decider = s.decider ∧ (s.switchWrite w m).1.tables = s.tables ∧ (s.switchWrite w m).1.line = s.line ∧
    (s.switchWrite w m).1.key = s.key ∧ (s.switchWrite w m).1.renderer = s.renderer ∧ (s.switchWrite w m).1.cue = s.cue ∧
    (s.switchWrite w m).1.ports = s.ports ∧ (s.switchWrite w m).1.fault = s.fault ∧ (s.switchWrite w m).1.due = s.due ∧
    (s.switchWrite w m).1.draws = s.draws ∧ (s.switchWrite w m).1.pending = s.pending := by
  simp [State.switchWrite]

@[simp] theorem State.answerPut_frame (s : State) (src : Manual) (a : Byte) :
    (s.answerPut src a).1.asp = s.asp ∧ (s.answerPut src a).1.rate = s.rate ∧ (s.answerPut src a).1.tracker = s.tracker ∧
    (s.answerPut src a).1.decider = s.decider ∧ (s.answerPut src a).1.tables = s.tables ∧ (s.answerPut src a).1.line = s.line ∧
    (s.answerPut src a).1.key = s.key ∧ (s.answerPut src a).1.renderer = s.renderer ∧ (s.answerPut src a).1.cue = s.cue ∧
    (s.answerPut src a).1.ports = s.ports ∧ (s.answerPut src a).1.fault = s.fault ∧ (s.answerPut src a).1.due = s.due ∧
    (s.answerPut src a).1.draws = s.draws ∧ (s.answerPut src a).1.pending = s.pending := by
  simp [State.answerPut]

@[simp] theorem State.answerSet_frame (s : State) (src : Manual) (a : Byte) :
    (s.answerSet src a).1.asp = s.asp ∧ (s.answerSet src a).1.rate = s.rate ∧ (s.answerSet src a).1.tracker = s.tracker ∧
    (s.answerSet src a).1.decider = s.decider ∧ (s.answerSet src a).1.tables = s.tables ∧ (s.answerSet src a).1.line = s.line ∧
    (s.answerSet src a).1.key = s.key ∧ (s.answerSet src a).1.renderer = s.renderer ∧ (s.answerSet src a).1.cue = s.cue ∧
    (s.answerSet src a).1.ports = s.ports ∧ (s.answerSet src a).1.fault = s.fault ∧ (s.answerSet src a).1.due = s.due ∧
    (s.answerSet src a).1.draws = s.draws ∧ (s.answerSet src a).1.pending = s.pending := by
  simp [State.answerSet]

@[simp] theorem State.answerClear_frame (s : State) (src : Manual) (a : Byte) :
    (s.answerClear src a).1.asp = s.asp ∧ (s.answerClear src a).1.rate = s.rate ∧ (s.answerClear src a).1.tracker = s.tracker ∧
    (s.answerClear src a).1.decider = s.decider ∧ (s.answerClear src a).1.tables = s.tables ∧ (s.answerClear src a).1.line = s.line ∧
    (s.answerClear src a).1.key = s.key ∧ (s.answerClear src a).1.renderer = s.renderer ∧ (s.answerClear src a).1.cue = s.cue ∧
    (s.answerClear src a).1.ports = s.ports ∧ (s.answerClear src a).1.fault = s.fault ∧ (s.answerClear src a).1.due = s.due ∧
    (s.answerClear src a).1.draws = s.draws ∧ (s.answerClear src a).1.pending = s.pending := by
  simp [State.answerClear]

@[simp] theorem State.answerLocksw_frame (s : State) (m : Byte) :
    (s.answerLocksw m).1.asp = s.asp ∧ (s.answerLocksw m).1.rate = s.rate ∧ (s.answerLocksw m).1.tracker = s.tracker ∧
    (s.answerLocksw m).1.decider = s.decider ∧ (s.answerLocksw m).1.tables = s.tables ∧ (s.answerLocksw m).1.line = s.line ∧
    (s.answerLocksw m).1.matcher = s.matcher ∧ (s.answerLocksw m).1.queue = s.queue ∧ (s.answerLocksw m).1.key = s.key ∧
    (s.answerLocksw m).1.copy = s.copy ∧ (s.answerLocksw m).1.voices = s.voices ∧ (s.answerLocksw m).1.renderer = s.renderer ∧
    (s.answerLocksw m).1.cue = s.cue ∧ (s.answerLocksw m).1.ports = s.ports ∧ (s.answerLocksw m).1.fault = s.fault ∧
    (s.answerLocksw m).1.due = s.due ∧ (s.answerLocksw m).1.draws = s.draws ∧ (s.answerLocksw m).1.pending = s.pending := by
  simp [State.answerLocksw]

@[simp] theorem State.writeKey_frame (s : State) (v : Fin 12) (x : Source) (p : Bool) :
    (s.writeKey v x p).1.asp = s.asp ∧ (s.writeKey v x p).1.rate = s.rate ∧ (s.writeKey v x p).1.tracker = s.tracker ∧
    (s.writeKey v x p).1.decider = s.decider ∧ (s.writeKey v x p).1.tables = s.tables ∧ (s.writeKey v x p).1.line = s.line ∧
    (s.writeKey v x p).1.matcher = s.matcher ∧ (s.writeKey v x p).1.queue = s.queue ∧ (s.writeKey v x p).1.key = s.key ∧
    (s.writeKey v x p).1.copy = s.copy ∧ (s.writeKey v x p).1.voices = s.voices ∧ (s.writeKey v x p).1.renderer = s.renderer ∧
    (s.writeKey v x p).1.cue = s.cue ∧ (s.writeKey v x p).1.ports = s.ports ∧ (s.writeKey v x p).1.due = s.due ∧
    (s.writeKey v x p).1.draws = s.draws ∧ (s.writeKey v x p).1.pending = s.pending := by
  simp [State.writeKey]

@[simp] theorem State.writeScale_frame (s : State) (v : Fin 8) (x : Source) (p : Bool) :
    (s.writeScale v x p).1.asp = s.asp ∧ (s.writeScale v x p).1.rate = s.rate ∧ (s.writeScale v x p).1.tracker = s.tracker ∧
    (s.writeScale v x p).1.decider = s.decider ∧ (s.writeScale v x p).1.tables = s.tables ∧ (s.writeScale v x p).1.line = s.line ∧
    (s.writeScale v x p).1.matcher = s.matcher ∧ (s.writeScale v x p).1.queue = s.queue ∧ (s.writeScale v x p).1.key = s.key ∧
    (s.writeScale v x p).1.copy = s.copy ∧ (s.writeScale v x p).1.voices = s.voices ∧ (s.writeScale v x p).1.renderer = s.renderer ∧
    (s.writeScale v x p).1.cue = s.cue ∧ (s.writeScale v x p).1.ports = s.ports ∧ (s.writeScale v x p).1.fault = s.fault ∧
    (s.writeScale v x p).1.due = s.due ∧ (s.writeScale v x p).1.draws = s.draws ∧ (s.writeScale v x p).1.pending = s.pending := by
  simp [State.writeScale]

@[simp] theorem State.writeChord_frame (s : State) (v : Option Chord) (x : Source) (p : Bool) :
    (s.writeChord v x p).1.asp = s.asp ∧ (s.writeChord v x p).1.rate = s.rate ∧ (s.writeChord v x p).1.tracker = s.tracker ∧
    (s.writeChord v x p).1.decider = s.decider ∧ (s.writeChord v x p).1.tables = s.tables ∧ (s.writeChord v x p).1.line = s.line ∧
    (s.writeChord v x p).1.matcher = s.matcher ∧ (s.writeChord v x p).1.queue = s.queue ∧ (s.writeChord v x p).1.key = s.key ∧
    (s.writeChord v x p).1.copy = s.copy ∧ (s.writeChord v x p).1.voices = s.voices ∧ (s.writeChord v x p).1.renderer = s.renderer ∧
    (s.writeChord v x p).1.cue = s.cue ∧ (s.writeChord v x p).1.ports = s.ports ∧ (s.writeChord v x p).1.fault = s.fault ∧
    (s.writeChord v x p).1.due = s.due ∧ (s.writeChord v x p).1.draws = s.draws ∧ (s.writeChord v x p).1.pending = s.pending := by
  simp [State.writeChord]

@[simp] theorem State.answerSetkey_frame (s : State) (src : Manual) (a b : Byte) :
    (s.answerSetkey src a b).1.asp = s.asp ∧ (s.answerSetkey src a b).1.rate = s.rate ∧ (s.answerSetkey src a b).1.tracker = s.tracker ∧
    (s.answerSetkey src a b).1.decider = s.decider ∧ (s.answerSetkey src a b).1.tables = s.tables ∧
    (s.answerSetkey src a b).1.line = s.line ∧ (s.answerSetkey src a b).1.matcher = s.matcher ∧
    (s.answerSetkey src a b).1.queue = s.queue ∧ (s.answerSetkey src a b).1.key = s.key ∧
    (s.answerSetkey src a b).1.renderer = s.renderer ∧ (s.answerSetkey src a b).1.cue = s.cue ∧
    (s.answerSetkey src a b).1.ports = s.ports ∧ (s.answerSetkey src a b).1.due = s.due ∧ (s.answerSetkey src a b).1.draws = s.draws ∧
    (s.answerSetkey src a b).1.pending = s.pending := by
  simp only [State.answerSetkey, answer]; (repeat' split) <;> simp

@[simp] theorem State.answerSetscale_frame (s : State) (src : Manual) (a b : Byte) :
    (s.answerSetscale src a b).1.asp = s.asp ∧ (s.answerSetscale src a b).1.rate = s.rate ∧
    (s.answerSetscale src a b).1.tracker = s.tracker ∧ (s.answerSetscale src a b).1.decider = s.decider ∧
    (s.answerSetscale src a b).1.tables = s.tables ∧ (s.answerSetscale src a b).1.line = s.line ∧
    (s.answerSetscale src a b).1.matcher = s.matcher ∧ (s.answerSetscale src a b).1.queue = s.queue ∧
    (s.answerSetscale src a b).1.key = s.key ∧ (s.answerSetscale src a b).1.renderer = s.renderer ∧
    (s.answerSetscale src a b).1.cue = s.cue ∧ (s.answerSetscale src a b).1.ports = s.ports ∧
    (s.answerSetscale src a b).1.fault = s.fault ∧ (s.answerSetscale src a b).1.due = s.due ∧
    (s.answerSetscale src a b).1.draws = s.draws ∧ (s.answerSetscale src a b).1.pending = s.pending := by
  simp only [State.answerSetscale, answer]; (repeat' split) <;> simp

@[simp] theorem State.answerChordWrite_frame (s : State) (src : Manual) (v : Option Chord) (p : Bool) :
    (s.answerChordWrite src v p).1.asp = s.asp ∧ (s.answerChordWrite src v p).1.rate = s.rate ∧
    (s.answerChordWrite src v p).1.tracker = s.tracker ∧ (s.answerChordWrite src v p).1.decider = s.decider ∧
    (s.answerChordWrite src v p).1.tables = s.tables ∧ (s.answerChordWrite src v p).1.line = s.line ∧
    (s.answerChordWrite src v p).1.matcher = s.matcher ∧ (s.answerChordWrite src v p).1.queue = s.queue ∧
    (s.answerChordWrite src v p).1.key = s.key ∧ (s.answerChordWrite src v p).1.renderer = s.renderer ∧
    (s.answerChordWrite src v p).1.cue = s.cue ∧ (s.answerChordWrite src v p).1.ports = s.ports ∧
    (s.answerChordWrite src v p).1.fault = s.fault ∧ (s.answerChordWrite src v p).1.due = s.due ∧
    (s.answerChordWrite src v p).1.draws = s.draws ∧ (s.answerChordWrite src v p).1.pending = s.pending := by
  simp [State.answerChordWrite]

@[simp] theorem State.answerSetchord_frame (s : State) (src : Manual) (a : Byte) (c : ChordBytes) :
    (s.answerSetchord src a c).1.asp = s.asp ∧ (s.answerSetchord src a c).1.rate = s.rate ∧
    (s.answerSetchord src a c).1.tracker = s.tracker ∧ (s.answerSetchord src a c).1.decider = s.decider ∧
    (s.answerSetchord src a c).1.tables = s.tables ∧ (s.answerSetchord src a c).1.line = s.line ∧
    (s.answerSetchord src a c).1.matcher = s.matcher ∧ (s.answerSetchord src a c).1.queue = s.queue ∧
    (s.answerSetchord src a c).1.key = s.key ∧ (s.answerSetchord src a c).1.renderer = s.renderer ∧
    (s.answerSetchord src a c).1.cue = s.cue ∧ (s.answerSetchord src a c).1.ports = s.ports ∧
    (s.answerSetchord src a c).1.fault = s.fault ∧ (s.answerSetchord src a c).1.due = s.due ∧
    (s.answerSetchord src a c).1.draws = s.draws ∧ (s.answerSetchord src a c).1.pending = s.pending := by
  simp only [State.answerSetchord, answer]; (repeat' split) <;> simp

@[simp] theorem State.answerUnpin_frame (s : State) (src : Manual) (a : Byte) :
    (s.answerUnpin src a).1.asp = s.asp ∧ (s.answerUnpin src a).1.rate = s.rate ∧ (s.answerUnpin src a).1.tracker = s.tracker ∧
    (s.answerUnpin src a).1.decider = s.decider ∧ (s.answerUnpin src a).1.tables = s.tables ∧ (s.answerUnpin src a).1.line = s.line ∧
    (s.answerUnpin src a).1.matcher = s.matcher ∧ (s.answerUnpin src a).1.queue = s.queue ∧ (s.answerUnpin src a).1.key = s.key ∧
    (s.answerUnpin src a).1.renderer = s.renderer ∧ (s.answerUnpin src a).1.cue = s.cue ∧ (s.answerUnpin src a).1.ports = s.ports ∧
    (s.answerUnpin src a).1.due = s.due ∧ (s.answerUnpin src a).1.draws = s.draws ∧ (s.answerUnpin src a).1.pending = s.pending := by
  simp only [State.answerUnpin, answer, unpinAnswer]; (repeat' split) <;> simp

@[simp] theorem State.answerHush_frame (s : State) (src : Manual) :
    (s.answerHush src).1.asp = s.asp ∧ (s.answerHush src).1.rate = s.rate ∧ (s.answerHush src).1.tracker = s.tracker ∧
    (s.answerHush src).1.decider = s.decider ∧ (s.answerHush src).1.tables = s.tables ∧ (s.answerHush src).1.line = s.line ∧
    (s.answerHush src).1.matcher = s.matcher ∧ (s.answerHush src).1.queue = s.queue ∧ (s.answerHush src).1.key = s.key ∧
    (s.answerHush src).1.copy = s.copy ∧ (s.answerHush src).1.renderer = s.renderer ∧ (s.answerHush src).1.cue = s.cue ∧
    (s.answerHush src).1.ports = s.ports ∧ (s.answerHush src).1.fault = s.fault ∧ (s.answerHush src).1.due = s.due ∧
    (s.answerHush src).1.draws = s.draws ∧ (s.answerHush src).1.pending = s.pending := by
  simp only [State.answerHush]; (repeat' split) <;> simp

@[simp] theorem State.answerResume_frame (s : State) (src : Manual) :
    (s.answerResume src).1.asp = s.asp ∧ (s.answerResume src).1.rate = s.rate ∧ (s.answerResume src).1.tracker = s.tracker ∧
    (s.answerResume src).1.decider = s.decider ∧ (s.answerResume src).1.tables = s.tables ∧ (s.answerResume src).1.line = s.line ∧
    (s.answerResume src).1.matcher = s.matcher ∧ (s.answerResume src).1.queue = s.queue ∧ (s.answerResume src).1.key = s.key ∧
    (s.answerResume src).1.copy = s.copy ∧ (s.answerResume src).1.renderer = s.renderer ∧ (s.answerResume src).1.cue = s.cue ∧
    (s.answerResume src).1.ports = s.ports ∧ (s.answerResume src).1.fault = s.fault ∧ (s.answerResume src).1.due = s.due ∧
    (s.answerResume src).1.draws = s.draws ∧ (s.answerResume src).1.pending = s.pending := by
  simp only [State.answerResume, answer]; (repeat' split) <;> simp

@[simp] theorem State.answerReadcontext_frame (s : State) :
    (s.answerReadcontext).1.asp = s.asp ∧ (s.answerReadcontext).1.rate = s.rate ∧ (s.answerReadcontext).1.tracker = s.tracker ∧
    (s.answerReadcontext).1.decider = s.decider ∧ (s.answerReadcontext).1.tables = s.tables ∧ (s.answerReadcontext).1.ctx = s.ctx ∧
    (s.answerReadcontext).1.line = s.line ∧ (s.answerReadcontext).1.matcher = s.matcher ∧ (s.answerReadcontext).1.queue = s.queue ∧
    (s.answerReadcontext).1.key = s.key ∧ (s.answerReadcontext).1.copy = s.copy ∧ (s.answerReadcontext).1.voices = s.voices ∧
    (s.answerReadcontext).1.renderer = s.renderer ∧ (s.answerReadcontext).1.cue = s.cue ∧ (s.answerReadcontext).1.ports = s.ports ∧
    (s.answerReadcontext).1.fault = s.fault ∧ (s.answerReadcontext).1.due = s.due ∧ (s.answerReadcontext).1.draws = s.draws ∧
    (s.answerReadcontext).1.pending = s.pending := by
  simp [State.answerReadcontext]

@[simp] theorem State.answerCueload_frame (s : State) (k : Byte) (r : CueBytes) :
    (s.answerCueload k r).1.asp = s.asp ∧ (s.answerCueload k r).1.rate = s.rate ∧ (s.answerCueload k r).1.tracker = s.tracker ∧
    (s.answerCueload k r).1.decider = s.decider ∧ (s.answerCueload k r).1.ctx = s.ctx ∧ (s.answerCueload k r).1.line = s.line ∧
    (s.answerCueload k r).1.matcher = s.matcher ∧ (s.answerCueload k r).1.queue = s.queue ∧ (s.answerCueload k r).1.key = s.key ∧
    (s.answerCueload k r).1.copy = s.copy ∧ (s.answerCueload k r).1.voices = s.voices ∧ (s.answerCueload k r).1.renderer = s.renderer ∧
    (s.answerCueload k r).1.cue = s.cue ∧ (s.answerCueload k r).1.ports = s.ports ∧ (s.answerCueload k r).1.fault = s.fault ∧
    (s.answerCueload k r).1.due = s.due ∧ (s.answerCueload k r).1.draws = s.draws ∧ (s.answerCueload k r).1.pending = s.pending := by
  simp only [State.answerCueload, answer]; (repeat' split) <;> simp

@[simp] theorem State.answerCuelen_frame (s : State) (a b : Byte) :
    (s.answerCuelen a b).1.asp = s.asp ∧ (s.answerCuelen a b).1.rate = s.rate ∧ (s.answerCuelen a b).1.tracker = s.tracker ∧
    (s.answerCuelen a b).1.decider = s.decider ∧ (s.answerCuelen a b).1.ctx = s.ctx ∧ (s.answerCuelen a b).1.line = s.line ∧
    (s.answerCuelen a b).1.matcher = s.matcher ∧ (s.answerCuelen a b).1.queue = s.queue ∧ (s.answerCuelen a b).1.key = s.key ∧
    (s.answerCuelen a b).1.copy = s.copy ∧ (s.answerCuelen a b).1.voices = s.voices ∧ (s.answerCuelen a b).1.renderer = s.renderer ∧
    (s.answerCuelen a b).1.ports = s.ports ∧ (s.answerCuelen a b).1.fault = s.fault ∧ (s.answerCuelen a b).1.due = s.due ∧
    (s.answerCuelen a b).1.draws = s.draws ∧ (s.answerCuelen a b).1.pending = s.pending := by
  simp only [State.answerCuelen, answer]; (repeat' split) <;> simp

@[simp] theorem State.answerCuenext_frame (s : State) :
    (s.answerCuenext).1.asp = s.asp ∧ (s.answerCuenext).1.rate = s.rate ∧ (s.answerCuenext).1.tracker = s.tracker ∧
    (s.answerCuenext).1.decider = s.decider ∧ (s.answerCuenext).1.tables = s.tables ∧ (s.answerCuenext).1.line = s.line ∧
    (s.answerCuenext).1.key = s.key ∧ (s.answerCuenext).1.renderer = s.renderer ∧ (s.answerCuenext).1.ports = s.ports ∧
    (s.answerCuenext).1.due = s.due ∧ (s.answerCuenext).1.draws = s.draws ∧ (s.answerCuenext).1.pending = s.pending := by
  simp only [State.answerCuenext, answer, navigated]; (repeat' split) <;> simp

@[simp] theorem State.answerCueprev_frame (s : State) :
    (s.answerCueprev).1.asp = s.asp ∧ (s.answerCueprev).1.rate = s.rate ∧ (s.answerCueprev).1.tracker = s.tracker ∧
    (s.answerCueprev).1.decider = s.decider ∧ (s.answerCueprev).1.tables = s.tables ∧ (s.answerCueprev).1.line = s.line ∧
    (s.answerCueprev).1.key = s.key ∧ (s.answerCueprev).1.renderer = s.renderer ∧ (s.answerCueprev).1.ports = s.ports ∧
    (s.answerCueprev).1.due = s.due ∧ (s.answerCueprev).1.draws = s.draws ∧ (s.answerCueprev).1.pending = s.pending := by
  simp only [State.answerCueprev, answer, navigated]; (repeat' split) <;> simp

@[simp] theorem State.answerCuegoto_frame (s : State) (k : Byte) :
    (s.answerCuegoto k).1.asp = s.asp ∧ (s.answerCuegoto k).1.rate = s.rate ∧ (s.answerCuegoto k).1.tracker = s.tracker ∧
    (s.answerCuegoto k).1.decider = s.decider ∧ (s.answerCuegoto k).1.tables = s.tables ∧ (s.answerCuegoto k).1.line = s.line ∧
    (s.answerCuegoto k).1.key = s.key ∧ (s.answerCuegoto k).1.renderer = s.renderer ∧ (s.answerCuegoto k).1.ports = s.ports ∧
    (s.answerCuegoto k).1.due = s.due ∧ (s.answerCuegoto k).1.draws = s.draws ∧ (s.answerCuegoto k).1.pending = s.pending := by
  simp only [State.answerCuegoto, answer, navigated]; (repeat' split) <;> simp

@[simp] theorem State.answerCuestop_frame (s : State) :
    (s.answerCuestop).1.asp = s.asp ∧ (s.answerCuestop).1.rate = s.rate ∧ (s.answerCuestop).1.tracker = s.tracker ∧
    (s.answerCuestop).1.decider = s.decider ∧ (s.answerCuestop).1.tables = s.tables ∧ (s.answerCuestop).1.ctx = s.ctx ∧
    (s.answerCuestop).1.line = s.line ∧ (s.answerCuestop).1.matcher = s.matcher ∧ (s.answerCuestop).1.queue = s.queue ∧
    (s.answerCuestop).1.key = s.key ∧ (s.answerCuestop).1.copy = s.copy ∧ (s.answerCuestop).1.voices = s.voices ∧
    (s.answerCuestop).1.renderer = s.renderer ∧ (s.answerCuestop).1.ports = s.ports ∧ (s.answerCuestop).1.fault = s.fault ∧
    (s.answerCuestop).1.due = s.due ∧ (s.answerCuestop).1.draws = s.draws ∧ (s.answerCuestop).1.pending = s.pending := by
  simp [State.answerCuestop, answer]

@[simp] theorem State.answerReadcue_frame (s : State) (a b : Byte) :
    (s.answerReadcue a b).1.asp = s.asp ∧ (s.answerReadcue a b).1.rate = s.rate ∧ (s.answerReadcue a b).1.tracker = s.tracker ∧
    (s.answerReadcue a b).1.decider = s.decider ∧ (s.answerReadcue a b).1.tables = s.tables ∧ (s.answerReadcue a b).1.ctx = s.ctx ∧
    (s.answerReadcue a b).1.line = s.line ∧ (s.answerReadcue a b).1.matcher = s.matcher ∧ (s.answerReadcue a b).1.queue = s.queue ∧
    (s.answerReadcue a b).1.key = s.key ∧ (s.answerReadcue a b).1.copy = s.copy ∧ (s.answerReadcue a b).1.voices = s.voices ∧
    (s.answerReadcue a b).1.renderer = s.renderer ∧ (s.answerReadcue a b).1.cue = s.cue ∧ (s.answerReadcue a b).1.ports = s.ports ∧
    (s.answerReadcue a b).1.fault = s.fault ∧ (s.answerReadcue a b).1.due = s.due ∧ (s.answerReadcue a b).1.draws = s.draws ∧
    (s.answerReadcue a b).1.pending = s.pending := by
  simp only [State.answerReadcue, answer]; (repeat' split) <;> simp

@[simp] theorem State.answerHowl_frame (s : State) (e : Byte) (w : BitVec 16) :
    (s.answerHowl e w).1.asp = s.asp ∧ (s.answerHowl e w).1.rate = s.rate ∧ (s.answerHowl e w).1.tracker = s.tracker ∧
    (s.answerHowl e w).1.decider = s.decider ∧ (s.answerHowl e w).1.tables = s.tables ∧ (s.answerHowl e w).1.ctx = s.ctx ∧
    (s.answerHowl e w).1.line = s.line ∧ (s.answerHowl e w).1.matcher = s.matcher ∧ (s.answerHowl e w).1.queue = s.queue ∧
    (s.answerHowl e w).1.key = s.key ∧ (s.answerHowl e w).1.copy = s.copy ∧ (s.answerHowl e w).1.voices = s.voices ∧
    (s.answerHowl e w).1.renderer = s.renderer ∧ (s.answerHowl e w).1.cue = s.cue ∧ (s.answerHowl e w).1.ports = s.ports ∧
    (s.answerHowl e w).1.due = s.due ∧ (s.answerHowl e w).1.draws = s.draws ∧ (s.answerHowl e w).1.pending = s.pending := by
  simp only [State.answerHowl, answer]; (repeat' split) <;> simp

@[simp] theorem State.answerClearfault_frame (s : State) :
    (s.answerClearfault).1.asp = s.asp ∧ (s.answerClearfault).1.rate = s.rate ∧ (s.answerClearfault).1.tracker = s.tracker ∧
    (s.answerClearfault).1.decider = s.decider ∧ (s.answerClearfault).1.tables = s.tables ∧ (s.answerClearfault).1.ctx = s.ctx ∧
    (s.answerClearfault).1.line = s.line ∧ (s.answerClearfault).1.matcher = s.matcher ∧ (s.answerClearfault).1.queue = s.queue ∧
    (s.answerClearfault).1.key = s.key ∧ (s.answerClearfault).1.copy = s.copy ∧ (s.answerClearfault).1.renderer = s.renderer ∧
    (s.answerClearfault).1.cue = s.cue ∧ (s.answerClearfault).1.ports = s.ports ∧ (s.answerClearfault).1.due = s.due ∧
    (s.answerClearfault).1.draws = s.draws ∧ (s.answerClearfault).1.pending = s.pending := by
  simp only [State.answerClearfault]; (repeat' split) <;> simp

@[simp] theorem State.answerAckflags_frame (s : State) (m : BitVec 16) :
    (s.answerAckflags m).1.asp = s.asp ∧ (s.answerAckflags m).1.rate = s.rate ∧ (s.answerAckflags m).1.tracker = s.tracker ∧
    (s.answerAckflags m).1.decider = s.decider ∧ (s.answerAckflags m).1.tables = s.tables ∧ (s.answerAckflags m).1.ctx = s.ctx ∧
    (s.answerAckflags m).1.line = s.line ∧ (s.answerAckflags m).1.matcher = s.matcher ∧ (s.answerAckflags m).1.queue = s.queue ∧
    (s.answerAckflags m).1.key = s.key ∧ (s.answerAckflags m).1.copy = s.copy ∧ (s.answerAckflags m).1.voices = s.voices ∧
    (s.answerAckflags m).1.renderer = s.renderer ∧ (s.answerAckflags m).1.cue = s.cue ∧ (s.answerAckflags m).1.ports = s.ports ∧
    (s.answerAckflags m).1.due = s.due ∧ (s.answerAckflags m).1.draws = s.draws ∧ (s.answerAckflags m).1.pending = s.pending := by
  simp [State.answerAckflags]

@[simp] theorem State.answerKeytrack_frame (s : State) (b : KeytrackBytes) (c : Bool) :
    (s.answerKeytrack b c).1.asp = s.asp ∧ (s.answerKeytrack b c).1.rate = s.rate ∧ (s.answerKeytrack b c).1.tracker = s.tracker ∧
    (s.answerKeytrack b c).1.decider = s.decider ∧ (s.answerKeytrack b c).1.tables = s.tables ∧ (s.answerKeytrack b c).1.ctx = s.ctx ∧
    (s.answerKeytrack b c).1.line = s.line ∧ (s.answerKeytrack b c).1.matcher = s.matcher ∧ (s.answerKeytrack b c).1.queue = s.queue ∧
    (s.answerKeytrack b c).1.copy = s.copy ∧ (s.answerKeytrack b c).1.voices = s.voices ∧ (s.answerKeytrack b c).1.renderer = s.renderer ∧
    (s.answerKeytrack b c).1.cue = s.cue ∧ (s.answerKeytrack b c).1.ports = s.ports ∧ (s.answerKeytrack b c).1.fault = s.fault ∧
    (s.answerKeytrack b c).1.draws = s.draws ∧ (s.answerKeytrack b c).1.pending = s.pending := by
  simp only [State.answerKeytrack, answer]; (repeat' split) <;> simp

@[simp] theorem State.answerReadkeytrk_frame (s : State) :
    (s.answerReadkeytrk).1.asp = s.asp ∧ (s.answerReadkeytrk).1.rate = s.rate ∧ (s.answerReadkeytrk).1.tracker = s.tracker ∧
    (s.answerReadkeytrk).1.decider = s.decider ∧ (s.answerReadkeytrk).1.tables = s.tables ∧ (s.answerReadkeytrk).1.ctx = s.ctx ∧
    (s.answerReadkeytrk).1.line = s.line ∧ (s.answerReadkeytrk).1.matcher = s.matcher ∧ (s.answerReadkeytrk).1.queue = s.queue ∧
    (s.answerReadkeytrk).1.key = s.key ∧ (s.answerReadkeytrk).1.copy = s.copy ∧ (s.answerReadkeytrk).1.voices = s.voices ∧
    (s.answerReadkeytrk).1.renderer = s.renderer ∧ (s.answerReadkeytrk).1.cue = s.cue ∧ (s.answerReadkeytrk).1.ports = s.ports ∧
    (s.answerReadkeytrk).1.fault = s.fault ∧ (s.answerReadkeytrk).1.due = s.due ∧ (s.answerReadkeytrk).1.draws = s.draws ∧
    (s.answerReadkeytrk).1.pending = s.pending := by
  simp [State.answerReadkeytrk]

@[simp] theorem State.answerLearn_frame (s : State) (m : Byte) :
    (s.answerLearn m).1.asp = s.asp ∧ (s.answerLearn m).1.rate = s.rate ∧ (s.answerLearn m).1.decider = s.decider ∧
    (s.answerLearn m).1.tables = s.tables ∧ (s.answerLearn m).1.ctx = s.ctx ∧ (s.answerLearn m).1.line = s.line ∧
    (s.answerLearn m).1.matcher = s.matcher ∧ (s.answerLearn m).1.queue = s.queue ∧ (s.answerLearn m).1.key = s.key ∧
    (s.answerLearn m).1.copy = s.copy ∧ (s.answerLearn m).1.voices = s.voices ∧ (s.answerLearn m).1.renderer = s.renderer ∧
    (s.answerLearn m).1.cue = s.cue ∧ (s.answerLearn m).1.ports = s.ports ∧ (s.answerLearn m).1.fault = s.fault ∧
    (s.answerLearn m).1.due = s.due ∧ (s.answerLearn m).1.draws = s.draws ∧ (s.answerLearn m).1.pending = s.pending := by
  simp only [State.answerLearn, answer]; (repeat' split) <;> simp

@[simp] theorem State.answerTracker_frame (s : State) (b : TrackerBytes) :
    (s.answerTracker b).1.asp = s.asp ∧ (s.answerTracker b).1.rate = s.rate ∧ (s.answerTracker b).1.decider = s.decider ∧
    (s.answerTracker b).1.tables = s.tables ∧ (s.answerTracker b).1.ctx = s.ctx ∧ (s.answerTracker b).1.line = s.line ∧
    (s.answerTracker b).1.matcher = s.matcher ∧ (s.answerTracker b).1.queue = s.queue ∧ (s.answerTracker b).1.key = s.key ∧
    (s.answerTracker b).1.copy = s.copy ∧ (s.answerTracker b).1.voices = s.voices ∧ (s.answerTracker b).1.renderer = s.renderer ∧
    (s.answerTracker b).1.cue = s.cue ∧ (s.answerTracker b).1.ports = s.ports ∧ (s.answerTracker b).1.fault = s.fault ∧
    (s.answerTracker b).1.due = s.due ∧ (s.answerTracker b).1.draws = s.draws ∧ (s.answerTracker b).1.pending = s.pending := by
  simp only [State.answerTracker, answer]; (repeat' split) <;> simp

@[simp] theorem State.answerRate_frame (s : State) (b : RateBytes) :
    (s.answerRate b).1.asp = s.asp ∧ (s.answerRate b).1.tracker = s.tracker ∧ (s.answerRate b).1.decider = s.decider ∧
    (s.answerRate b).1.tables = s.tables ∧ (s.answerRate b).1.ctx = s.ctx ∧ (s.answerRate b).1.line = s.line ∧
    (s.answerRate b).1.matcher = s.matcher ∧ (s.answerRate b).1.queue = s.queue ∧ (s.answerRate b).1.key = s.key ∧
    (s.answerRate b).1.copy = s.copy ∧ (s.answerRate b).1.voices = s.voices ∧ (s.answerRate b).1.renderer = s.renderer ∧
    (s.answerRate b).1.cue = s.cue ∧ (s.answerRate b).1.ports = s.ports ∧ (s.answerRate b).1.fault = s.fault ∧
    (s.answerRate b).1.due = s.due ∧ (s.answerRate b).1.draws = s.draws ∧ (s.answerRate b).1.pending = s.pending := by
  simp only [State.answerRate, answer]; (repeat' split) <;> simp

@[simp] theorem State.answerRemeasure_frame (s : State) (b : RateBytes) :
    (s.answerRemeasure b).1.asp = s.asp ∧ (s.answerRemeasure b).1.tracker = s.tracker ∧ (s.answerRemeasure b).1.decider = s.decider ∧
    (s.answerRemeasure b).1.tables = s.tables ∧ (s.answerRemeasure b).1.ctx = s.ctx ∧ (s.answerRemeasure b).1.line = s.line ∧
    (s.answerRemeasure b).1.matcher = s.matcher ∧ (s.answerRemeasure b).1.queue = s.queue ∧ (s.answerRemeasure b).1.key = s.key ∧
    (s.answerRemeasure b).1.copy = s.copy ∧ (s.answerRemeasure b).1.voices = s.voices ∧ (s.answerRemeasure b).1.renderer = s.renderer ∧
    (s.answerRemeasure b).1.cue = s.cue ∧ (s.answerRemeasure b).1.ports = s.ports ∧ (s.answerRemeasure b).1.fault = s.fault ∧
    (s.answerRemeasure b).1.due = s.due ∧ (s.answerRemeasure b).1.draws = s.draws ∧ (s.answerRemeasure b).1.pending = s.pending := by
  simp only [State.answerRemeasure, answer]; (repeat' split) <;> simp

@[simp] theorem State.answerLine_frame (s : State) (b : LineBytes) (e : Option Bool) :
    (s.answerLine b e).1.asp = s.asp ∧ (s.answerLine b e).1.rate = s.rate ∧ (s.answerLine b e).1.tracker = s.tracker ∧
    (s.answerLine b e).1.decider = s.decider ∧ (s.answerLine b e).1.tables = s.tables ∧ (s.answerLine b e).1.key = s.key ∧
    (s.answerLine b e).1.renderer = s.renderer ∧ (s.answerLine b e).1.cue = s.cue ∧ (s.answerLine b e).1.ports = s.ports ∧
    (s.answerLine b e).1.due = s.due ∧ (s.answerLine b e).1.draws = s.draws ∧ (s.answerLine b e).1.pending = s.pending := by
  simp only [State.answerLine, answer]; (repeat' split) <;> simp

@[simp] theorem State.answerLoadscale_frame (s : State) (k : Byte) (m : BitVec 16) (r : Byte) :
    (s.answerLoadscale k m r).1.asp = s.asp ∧ (s.answerLoadscale k m r).1.rate = s.rate ∧ (s.answerLoadscale k m r).1.tracker = s.tracker ∧
    (s.answerLoadscale k m r).1.decider = s.decider ∧ (s.answerLoadscale k m r).1.ctx = s.ctx ∧ (s.answerLoadscale k m r).1.line = s.line ∧
    (s.answerLoadscale k m r).1.matcher = s.matcher ∧ (s.answerLoadscale k m r).1.queue = s.queue ∧
    (s.answerLoadscale k m r).1.key = s.key ∧ (s.answerLoadscale k m r).1.renderer = s.renderer ∧ (s.answerLoadscale k m r).1.cue = s.cue ∧
    (s.answerLoadscale k m r).1.ports = s.ports ∧ (s.answerLoadscale k m r).1.fault = s.fault ∧ (s.answerLoadscale k m r).1.due = s.due ∧
    (s.answerLoadscale k m r).1.draws = s.draws ∧ (s.answerLoadscale k m r).1.pending = s.pending := by
  simp only [State.answerLoadscale, answer]; (repeat' split) <;> simp

@[simp] theorem State.answerLoadshape_frame (s : State) (k : Byte) (m : BitVec 16) :
    (s.answerLoadshape k m).1.asp = s.asp ∧ (s.answerLoadshape k m).1.rate = s.rate ∧ (s.answerLoadshape k m).1.tracker = s.tracker ∧
    (s.answerLoadshape k m).1.decider = s.decider ∧ (s.answerLoadshape k m).1.ctx = s.ctx ∧ (s.answerLoadshape k m).1.line = s.line ∧
    (s.answerLoadshape k m).1.matcher = s.matcher ∧ (s.answerLoadshape k m).1.queue = s.queue ∧ (s.answerLoadshape k m).1.key = s.key ∧
    (s.answerLoadshape k m).1.renderer = s.renderer ∧ (s.answerLoadshape k m).1.cue = s.cue ∧ (s.answerLoadshape k m).1.ports = s.ports ∧
    (s.answerLoadshape k m).1.fault = s.fault ∧ (s.answerLoadshape k m).1.due = s.due ∧ (s.answerLoadshape k m).1.draws = s.draws ∧
    (s.answerLoadshape k m).1.pending = s.pending := by
  simp only [State.answerLoadshape, answer]; (repeat' split) <;> simp

@[simp] theorem State.answerLoadplan_frame (s : State) (k : Byte) (p : PlanBytes) (a : Byte) :
    (s.answerLoadplan k p a).1.asp = s.asp ∧ (s.answerLoadplan k p a).1.rate = s.rate ∧ (s.answerLoadplan k p a).1.tracker = s.tracker ∧
    (s.answerLoadplan k p a).1.decider = s.decider ∧ (s.answerLoadplan k p a).1.ctx = s.ctx ∧ (s.answerLoadplan k p a).1.line = s.line ∧
    (s.answerLoadplan k p a).1.matcher = s.matcher ∧ (s.answerLoadplan k p a).1.queue = s.queue ∧ (s.answerLoadplan k p a).1.key = s.key ∧
    (s.answerLoadplan k p a).1.copy = s.copy ∧ (s.answerLoadplan k p a).1.renderer = s.renderer ∧ (s.answerLoadplan k p a).1.cue = s.cue ∧
    (s.answerLoadplan k p a).1.ports = s.ports ∧ (s.answerLoadplan k p a).1.fault = s.fault ∧ (s.answerLoadplan k p a).1.due = s.due ∧
    (s.answerLoadplan k p a).1.draws = s.draws ∧ (s.answerLoadplan k p a).1.pending = s.pending := by
  simp only [State.answerLoadplan, answer]; (repeat' split) <;> simp

@[simp] theorem State.answerBind_frame (s : State) (v k a : Byte) :
    (s.answerBind v k a).1.asp = s.asp ∧ (s.answerBind v k a).1.rate = s.rate ∧ (s.answerBind v k a).1.tracker = s.tracker ∧
    (s.answerBind v k a).1.decider = s.decider ∧ (s.answerBind v k a).1.tables = s.tables ∧ (s.answerBind v k a).1.ctx = s.ctx ∧
    (s.answerBind v k a).1.line = s.line ∧ (s.answerBind v k a).1.matcher = s.matcher ∧ (s.answerBind v k a).1.queue = s.queue ∧
    (s.answerBind v k a).1.key = s.key ∧ (s.answerBind v k a).1.copy = s.copy ∧ (s.answerBind v k a).1.renderer = s.renderer ∧
    (s.answerBind v k a).1.cue = s.cue ∧ (s.answerBind v k a).1.ports = s.ports ∧ (s.answerBind v k a).1.fault = s.fault ∧
    (s.answerBind v k a).1.due = s.due ∧ (s.answerBind v k a).1.draws = s.draws ∧ (s.answerBind v k a).1.pending = s.pending := by
  simp only [State.answerBind, answer]; (repeat' split) <;> simp

@[simp] theorem State.answerReadtable_frame (s : State) (a b : Byte) :
    (s.answerReadtable a b).1.asp = s.asp ∧ (s.answerReadtable a b).1.rate = s.rate ∧ (s.answerReadtable a b).1.tracker = s.tracker ∧
    (s.answerReadtable a b).1.decider = s.decider ∧ (s.answerReadtable a b).1.tables = s.tables ∧ (s.answerReadtable a b).1.ctx = s.ctx ∧
    (s.answerReadtable a b).1.line = s.line ∧ (s.answerReadtable a b).1.matcher = s.matcher ∧ (s.answerReadtable a b).1.queue = s.queue ∧
    (s.answerReadtable a b).1.key = s.key ∧ (s.answerReadtable a b).1.copy = s.copy ∧ (s.answerReadtable a b).1.voices = s.voices ∧
    (s.answerReadtable a b).1.renderer = s.renderer ∧ (s.answerReadtable a b).1.cue = s.cue ∧ (s.answerReadtable a b).1.ports = s.ports ∧
    (s.answerReadtable a b).1.fault = s.fault ∧ (s.answerReadtable a b).1.due = s.due ∧ (s.answerReadtable a b).1.draws = s.draws ∧
    (s.answerReadtable a b).1.pending = s.pending := by
  simp only [State.answerReadtable, answer]; (repeat' split) <;> simp

@[simp] theorem State.answerReadstatus_frame (s : State) :
    (s.answerReadstatus).1.asp = s.asp ∧ (s.answerReadstatus).1.rate = s.rate ∧ (s.answerReadstatus).1.tracker = s.tracker ∧
    (s.answerReadstatus).1.decider = s.decider ∧ (s.answerReadstatus).1.tables = s.tables ∧ (s.answerReadstatus).1.ctx = s.ctx ∧
    (s.answerReadstatus).1.line = s.line ∧ (s.answerReadstatus).1.matcher = s.matcher ∧ (s.answerReadstatus).1.queue = s.queue ∧
    (s.answerReadstatus).1.key = s.key ∧ (s.answerReadstatus).1.copy = s.copy ∧ (s.answerReadstatus).1.voices = s.voices ∧
    (s.answerReadstatus).1.renderer = s.renderer ∧ (s.answerReadstatus).1.cue = s.cue ∧ (s.answerReadstatus).1.ports = s.ports ∧
    (s.answerReadstatus).1.fault = s.fault ∧ (s.answerReadstatus).1.due = s.due ∧ (s.answerReadstatus).1.draws = s.draws ∧
    (s.answerReadstatus).1.pending = s.pending := by
  simp [State.answerReadstatus]

@[simp] theorem State.answerReadvoice_frame (s : State) (v : Byte) :
    (s.answerReadvoice v).1.asp = s.asp ∧ (s.answerReadvoice v).1.rate = s.rate ∧ (s.answerReadvoice v).1.tracker = s.tracker ∧
    (s.answerReadvoice v).1.decider = s.decider ∧ (s.answerReadvoice v).1.tables = s.tables ∧ (s.answerReadvoice v).1.ctx = s.ctx ∧
    (s.answerReadvoice v).1.line = s.line ∧ (s.answerReadvoice v).1.matcher = s.matcher ∧ (s.answerReadvoice v).1.queue = s.queue ∧
    (s.answerReadvoice v).1.key = s.key ∧ (s.answerReadvoice v).1.copy = s.copy ∧ (s.answerReadvoice v).1.voices = s.voices ∧
    (s.answerReadvoice v).1.renderer = s.renderer ∧ (s.answerReadvoice v).1.cue = s.cue ∧ (s.answerReadvoice v).1.ports = s.ports ∧
    (s.answerReadvoice v).1.fault = s.fault ∧ (s.answerReadvoice v).1.due = s.due ∧ (s.answerReadvoice v).1.draws = s.draws ∧
    (s.answerReadvoice v).1.pending = s.pending := by
  simp only [State.answerReadvoice, answer]; (repeat' split) <;> simp

@[simp] theorem State.answerTwowire_frame (s : State) (v : Byte) :
    (s.answerTwowire v).1.asp = s.asp ∧ (s.answerTwowire v).1.rate = s.rate ∧ (s.answerTwowire v).1.tracker = s.tracker ∧
    (s.answerTwowire v).1.decider = s.decider ∧ (s.answerTwowire v).1.tables = s.tables ∧ (s.answerTwowire v).1.ctx = s.ctx ∧
    (s.answerTwowire v).1.line = s.line ∧ (s.answerTwowire v).1.matcher = s.matcher ∧ (s.answerTwowire v).1.queue = s.queue ∧
    (s.answerTwowire v).1.key = s.key ∧ (s.answerTwowire v).1.copy = s.copy ∧ (s.answerTwowire v).1.voices = s.voices ∧
    (s.answerTwowire v).1.renderer = s.renderer ∧ (s.answerTwowire v).1.cue = s.cue ∧ (s.answerTwowire v).1.fault = s.fault ∧
    (s.answerTwowire v).1.due = s.due ∧ (s.answerTwowire v).1.draws = s.draws ∧ (s.answerTwowire v).1.pending = s.pending := by
  simp only [State.answerTwowire, answer]; (repeat' split) <;> simp

@[simp] theorem State.answerRestart_frame (s : State) :
    (s.answerRestart).1.asp = s.asp ∧ (s.answerRestart).1.rate = s.rate ∧ (s.answerRestart).1.tables = s.tables ∧
    (s.answerRestart).1.ports = s.ports ∧ (s.answerRestart).1.draws = s.draws ∧ (s.answerRestart).1.pending = s.pending := by
  simp [State.answerRestart, answer]

end Sys2Proof.Machine
end

