-- ==== Sys2Proof/Laws/State.lean ====
section
/-! SUPPORT. The small lemmas of the named updates: what each field that an update does touch holds after it. The fields
that an update leaves alone are in Sys2Proof/Laws/Frame.lean. -/

namespace Sys2Proof.Machine

/-! ### Sticky flags -/

@[simp] theorem State.raise_output (s : State) (f : Flag) : (s.raise f).fault.output = s.fault.output := rfl
@[simp] theorem State.raise_causeHowl (s : State) (f : Flag) : (s.raise f).fault.causeHowl = s.fault.causeHowl := rfl
@[simp] theorem State.raise_howlCounter (s : State) (f : Flag) : (s.raise f).fault.howlCounter = s.fault.howlCounter := rfl
@[simp] theorem State.raise_dev0 (s : State) (f : Flag) : (s.raise f).fault.dev0 = s.fault.dev0 := rfl
@[simp] theorem State.raise_recovery (s : State) (f : Flag) : (s.raise f).fault.recovery = s.fault.recovery := rfl
@[simp] theorem State.raise_howlEnable (s : State) (f : Flag) : (s.raise f).fault.howlEnable = s.fault.howlEnable := rfl
@[simp] theorem State.raise_window (s : State) (f : Flag) : (s.raise f).fault.window = s.fault.window := rfl
@[simp] theorem State.raise_flags (s : State) (f : Flag) : (s.raise f).fault.flags = s.fault.flags ||| f.mask := rfl

@[simp] theorem State.raiseIf_false (s : State) (f : Flag) : s.raiseIf false f = s := rfl
@[simp] theorem State.raiseIf_true (s : State) (f : Flag) : s.raiseIf true f = s.raise f := rfl

/-! ### Reply slots and ports -/

@[simp] theorem State.reply_slot (s : State) (src : Manual) (r : Reply) : (s.reply src r).slot src = r := by cases src <;> rfl

theorem State.reply_slot_of_ne (s : State) {src other : Manual} (r : Reply) (h : other ≠ src) : (s.reply src r).slot other = s.slot other := by
  cases src <;> cases other <;> first | rfl | exact absurd rfl h

@[simp] theorem State.reply_holder (s : State) (src : Manual) (r : Reply) : (s.reply src r).ports.holder = s.ports.holder := by cases src <;> rfl
@[simp] theorem State.reply_refused (s : State) (src : Manual) (r : Reply) : (s.reply src r).ports.refused = s.ports.refused := by cases src <;> rfl
@[simp] theorem State.reply_spdo (s : State) (src : Manual) (r : Reply) : (s.reply src r).ports.spdo = s.ports.spdo := by cases src <;> rfl
@[simp] theorem State.reply_address (s : State) (src : Manual) (r : Reply) : (s.reply src r).ports.address = s.ports.address := by cases src <;> rfl
@[simp] theorem State.reply_transfer (s : State) (src : Manual) (r : Reply) : (s.reply src r).ports.transfer = s.ports.transfer := by cases src <;> rfl
@[simp] theorem State.reply_acknowledged (s : State) (src : Manual) (r : Reply) :
    (s.reply src r).ports.acknowledged = s.ports.acknowledged := by cases src <;> rfl
@[simp] theorem State.reply_acks (s : State) (src : Manual) (r : Reply) : (s.reply src r).ports.acks = s.ports.acks := by cases src <;> rfl
@[simp] theorem State.reply_twd (s : State) (src : Manual) (r : Reply) : (s.reply src r).ports.twd = s.ports.twd := by cases src <;> rfl
@[simp] theorem State.reply_timer (s : State) (src : Manual) (r : Reply) : (s.reply src r).ports.timer = s.ports.timer := by cases src <;> rfl
@[simp] theorem State.reply_timeout (s : State) (src : Manual) (r : Reply) : (s.reply src r).ports.timeout = s.ports.timeout := by cases src <;> rfl

@[simp] theorem State.setPorts_ports (s : State) (f : Ports → Ports) : (s.setPorts f).ports = f s.ports := rfl
@[simp] theorem State.freePort_holder (s : State) (l : List Byte) : (s.freePort l).ports.holder = none := rfl
@[simp] theorem State.freePort_spdo (s : State) (l : List Byte) : (s.freePort l).ports.spdo = l := rfl
@[simp] theorem State.freePort_slot (s : State) (l : List Byte) (m : Manual) : (s.freePort l).slot m = s.slot m := by cases m <;> rfl
@[simp] theorem Ports.endTransfer_transfer (p : Ports) (e : TransferEnd) : (p.endTransfer e).transfer = .idle := by cases e <;> rfl
@[simp] theorem Ports.endTransfer_timer_stop (p : Ports) : (p.endTransfer .stop).timer = none := rfl
@[simp] theorem Ports.endTransfer_timer_repeated (p : Ports) :
    (p.endTransfer .repeatedStart).timer = p.timer.map fun _ => p.timeout := rfl
@[simp] theorem Ports.endTransfer_timeout (p : Ports) (e : TransferEnd) : (p.endTransfer e).timeout = p.timeout := by cases e <;> rfl
@[simp] theorem Ports.endTransfer_address (p : Ports) (e : TransferEnd) : (p.endTransfer e).address = p.address := by cases e <;> rfl
@[simp] theorem Ports.twcFalls_timer (p : Ports) : p.twcFalls.timer = p.timer.map fun _ => p.timeout := rfl
@[simp] theorem Ports.endTransfer_stage (p : Ports) (e : TransferEnd) : (p.endTransfer e).stage = p.stage := by cases e <;> rfl
@[simp] theorem Ports.endTransfer_acks (p : Ports) (e : TransferEnd) : (p.endTransfer e).acks = p.acks := by cases e <;> rfl
@[simp] theorem acknowledges_length (n : Nat) : (acknowledges n).length = n := by simp [acknowledges]

/-! ### Voices -/

@[simp] theorem Quad.map_get {α β : Type} (f : α → β) (q : Quad α) (i : Fin 4) : (q.map f).get i = f (q.get i) := by
  match i with
  | 0 => rfl
  | 1 => rfl
  | 2 => rfl
  | 3 => rfl

@[simp] theorem Quad.mapIdx_get {α β : Type} (f : Fin 4 → α → β) (q : Quad α) (i : Fin 4) : (q.mapIdx f).get i = f i (q.get i) := by
  match i with
  | 0 => rfl
  | 1 => rfl
  | 2 => rfl
  | 3 => rfl

@[simp] theorem Quad.update_get {α : Type} (f : α → α) (q : Quad α) (n i : Fin 4) :
    (q.update n f).get i = if i = n then f (q.get i) else q.get i := Quad.mapIdx_get _ q i

@[simp] theorem State.mapRen_get (s : State) (f : RenderRecord → RenderRecord) (i : Fin 4) :
    (s.mapRen f).voices.get i = { s.voices.get i with ren := f (s.voices.get i).ren } := Quad.map_get _ _ i

@[simp] theorem State.retest_get (s : State) (i : Fin 4) :
    s.retest.voices.get i = { s.voices.get i with ren := (s.voices.get i).ren.retest (s.soundCondition (s.voices.get i).ren) } :=
  State.mapRen_get s _ i

@[simp] theorem RenderRecord.cut_state (r : RenderRecord) : r.cut.state = .idle := rfl
@[simp] theorem RenderRecord.cut_fade (r : RenderRecord) : r.cut.fade = 0 := rfl
@[simp] theorem RenderRecord.cut_fadeOld (r : RenderRecord) : r.cut.fadeOld = 0 := rfl
@[simp] theorem RenderRecord.cut_applied (r : RenderRecord) : r.cut.applied = r.applied := rfl
@[simp] theorem RenderRecord.cut_interval (r : RenderRecord) : r.cut.interval = r.interval := rfl
@[simp] theorem RenderRecord.loseTarget_hasTarget (r : RenderRecord) : r.loseTarget.hasTarget = false := rfl
@[simp] theorem RenderRecord.loseTarget_glide (r : RenderRecord) : r.loseTarget.glide = none := rfl
@[simp] theorem RenderRecord.request_requested (r : RenderRecord) (d : Int) : (r.request d).requested = some d := rfl
@[simp] theorem RenderRecord.request_applied (r : RenderRecord) (d : Int) : (r.request d).applied = r.applied := rfl

/-! ### Queue, match, assembler, cue unit, completions -/

@[simp] theorem State.flushQueue_queue (s : State) : s.flushQueue.queue = [] := rfl
@[simp] theorem State.flushQueue_matcher (s : State) : s.flushQueue.matcher = s.matcher.map fun m => { m with discarded := true } := rfl
@[simp] theorem State.setAssembler_assembler (s : State) (a : Assembler) : (s.setAssembler a).line.assembler = a := rfl
@[simp] theorem State.setAssembler_settings (s : State) (a : Assembler) : (s.setAssembler a).line.settings = s.line.settings := rfl
@[simp] theorem State.setAssembler_fifo (s : State) (a : Assembler) : (s.setAssembler a).line.fifo = s.line.fifo := rfl
@[simp] theorem State.setAssembler_cond (s : State) (a : Assembler) : (s.setAssembler a).line.cond = s.line.cond := rfl
@[simp] theorem State.awaitEdge_wait (s : State) : s.awaitEdge.line.wait = .edge := rfl
@[simp] theorem State.awaitEdge_settings (s : State) : s.awaitEdge.line.settings = s.line.settings := rfl
@[simp] theorem State.awaitEdge_cond (s : State) : s.awaitEdge.line.cond = s.line.cond := rfl
@[simp] theorem State.awaitEdge_assembler (s : State) : s.awaitEdge.line.assembler = s.line.assembler := rfl
@[simp] theorem State.awaitEdge_fifo (s : State) : s.awaitEdge.line.fifo = s.line.fifo := rfl
@[simp] theorem State.awaitEdge_silence (s : State) : s.awaitEdge.line.silence = s.line.silence := rfl
@[simp] theorem State.awaitEdge_broken (s : State) : s.awaitEdge.line.broken = s.line.broken := rfl
@[simp] theorem State.awaitEdge_frameSeen (s : State) : s.awaitEdge.line.frameSeen = s.line.frameSeen := rfl
@[simp] theorem State.setCursor_cue (s : State) (k : Fin 64) (c : CueStep) : (s.setCursor k c).cue = ⟨some k, 0, true, c.advance⟩ := rfl
@[simp] theorem State.noteTaken_due (s : State) : s.noteTaken.due = { s.due with note := none } := rfl
@[simp] theorem State.reset_pending : State.reset.pending = [] := rfl
@[simp] theorem State.reset_due : State.reset.due = .nothing := rfl

/-! ### Frames -/

@[simp] theorem State.moveSamples_vocal (s : State) (w : SlotWord) (b : Nat) : (s.moveSamples w b).asp.vocal = s.shifterFrame :: s.asp.vocal := rfl
@[simp] theorem State.moveSamples_dry (s : State) (w : SlotWord) (b : Nat) : (s.moveSamples w b).asp.dry = shiftIn s.asp.dry (inputSample w b) := rfl
@[simp] theorem State.moveSamples_frames (s : State) (w : SlotWord) (b : Nat) : (s.moveSamples w b).asp.frames = s.asp.frames := rfl

end Sys2Proof.Machine
end

