-- ==== Sys2Proof/Laws/Kept.lean ====
section
/-! SUPPORT. One induction for every invariant: a property that each operation of the part keeps is kept by every command
and so by every step. -/

namespace Sys2Proof.Machine

/-- The operations that the commands are made of, each keeping `P`. -/
structure Kept (P : State → Prop) : Prop where
  powerOn : ∀ s sa, P s → P { State.powerOn sa with draws := s.draws, pending := s.pending }
  pending : ∀ s q, P s → P { s with pending := q }
  ports : ∀ s p, p.timeout = s.ports.timeout → p.address = s.ports.address → P s → P { s with ports := p }
  twTimeout : ∀ s, P s → P (s.raise .twTimeout)
  takeLearn : ∀ s, P s → P s.takeLearn
  takeHowl : ∀ s, P s → P s.takeHowl
  takeRecovery : ∀ s, P s → P s.takeRecovery
  takeNoteStart : ∀ s, P s → P s.takeNoteStart
  takeNoteOff : ∀ s, P s → P s.takeNoteOff
  takeEvaluation : ∀ s, P s → P s.takeEvaluation
  takeProposal : ∀ s, P s → P s.takeProposal
  takeDwell : ∀ s, P s → P s.takeDwell
  takeSilence : ∀ s, P s → P s.takeSilence
  takeFadeStep : ∀ s, P s → P s.takeFadeStep
  takeRender : ∀ s, P s → P s.takeRender
  takeBoundary : ∀ s i, P s → P (s.takeBoundary i)
  nextFrame : ∀ s w b, P s → P (s.nextFrame w b)
  absence : ∀ s, P s → P s.absence
  measurement : ∀ s m a o, P s → P (s.measurement m a o)
  character : ∀ s s1 s2 s3, P s → P (s.character s1 s2 s3)
  falseStart : ∀ s s1 s2 s3, P s → P (s.falseStart s1 s2 s3)
  lineBreak : ∀ s, P s → P s.lineBreak
  matchEnd : ∀ s, P s → P s.matchEnd
  setkey : ∀ s src tonic pin, P s → P (s.answerSetkey src tonic pin).1
  setscale : ∀ s src slot pin, P s → P (s.answerSetscale src slot pin).1
  setchord : ∀ s src pin chord, P s → P (s.answerSetchord src pin chord).1
  unpin : ∀ s src field, P s → P (s.answerUnpin src field).1
  put : ∀ s src arg, P s → P (s.answerPut src arg).1
  set : ∀ s src arg, P s → P (s.answerSet src arg).1
  clear : ∀ s src arg, P s → P (s.answerClear src arg).1
  locksw : ∀ s mask, P s → P (s.answerLocksw mask).1
  hush : ∀ s src, P s → P (s.answerHush src).1
  resume : ∀ s src, P s → P (s.answerResume src).1
  cuenext : ∀ s, P s → P (s.answerCuenext).1
  cueprev : ∀ s, P s → P (s.answerCueprev).1
  cuegoto : ∀ s step, P s → P (s.answerCuegoto step).1
  cuestop : ∀ s, P s → P (s.answerCuestop).1
  cueload : ∀ s step record, P s → P (s.answerCueload step record).1
  cuelen : ∀ s length wrap, P s → P (s.answerCuelen length wrap).1
  loadscale : ∀ s slot members rule, P s → P (s.answerLoadscale slot members rule).1
  loadshape : ∀ s slot members, P s → P (s.answerLoadshape slot members).1
  loadplan : ∀ s slot plan adoption, P s → P (s.answerLoadplan slot plan adoption).1
  bind : ∀ s voice slot adoption, P s → P (s.answerBind voice slot adoption).1
  tracker : ∀ s settings, P s → P (s.answerTracker settings).1
  learn : ∀ s method, P s → P (s.answerLearn method).1
  rate : ∀ s settings, P s → P (s.answerRate settings).1
  remeasure : ∀ s settings, P s → P (s.answerRemeasure settings).1
  line : ∀ s b e, P s → P (s.answerLine b e).1
  keytrack : ∀ s b c, P s → P (s.answerKeytrack b c).1
  howl : ∀ s enable window, P s → P (s.answerHowl enable window).1
  twowire : ∀ s timeout, P s → P (s.answerTwowire timeout).1
  clearfault : ∀ s, P s → P (s.answerClearfault).1
  ackflags : ∀ s mask, P s → P (s.answerAckflags mask).1
  restart : ∀ s, P s → P (s.answerRestart).1

variable {P : State → Prop}

/-- R169: a reply changes a reply slot alone. -/
theorem Kept.reply (k : Kept P) (s : State) (src : Manual) (r : Reply) (h : P s) : P (s.reply src r) := by
  cases src <;> exact k.ports s _ rfl rfl h

/-- The completions taken before a decay event. -/
theorem Kept.completeFirst (k : Kept P) (s : State) (h : P s) : P s.completeFirst :=
  k.takeNoteOff _ (k.takeNoteStart _ (k.takeRecovery _ (k.takeHowl _ (k.takeLearn _ h))))

/-- The completions taken after a decay event. -/
theorem Kept.completeLast (k : Kept P) (s : State) (h : P s) : P s.completeLast :=
  k.takeRender _ (k.takeFadeStep _ (k.takeSilence _ (k.takeDwell _ h)))

/-- R107: every completion that is due but a proposal. -/
theorem Kept.evaluated (k : Kept P) (s : State) (h : P s) : P s.evaluated := k.completeLast _ (k.takeEvaluation _ (k.completeFirst s h))

/-- Every completion that is due. -/
theorem Kept.complete (k : Kept P) (s : State) (h : P s) : P s.complete := k.takeProposal _ (k.evaluated s h)

/-- R107: every completion that is due but a decay event. -/
theorem Kept.completeButDecay (k : Kept P) (s : State) (h : P s) : P s.completeButDecay :=
  k.takeProposal _ (k.completeLast _ (k.completeFirst s h))

/-- R107: an event that meets a decay event. -/
theorem Kept.meeting (k : Kept P) (s : State) (f : State → State) (hf : ∀ t, P t → P (f t)) (h : P s) : P (s.meeting f) :=
  k.takeProposal _ (hf _ (k.evaluated s h))

/-- R107: the release of a proposal. -/
theorem Kept.releaseProposal (k : Kept P) (s : State) (h : P s) : P s.releaseProposal := by
  unfold State.releaseProposal
  split
  · exact h
  · exact k.takeProposal s h

/-- R107: DECAY_EVENT. -/
theorem Kept.decayRow (k : Kept P) (s : State) (h : P s) : P s.decayRow := by
  unfold State.decayRow
  split
  next d => exact k.releaseProposal _ (by simpa [State.takeEvaluation, d] using k.takeEvaluation s h)
  next => exact h

/-- R107: SETTLE_COMPLETE. -/
theorem Kept.settleRow (k : Kept P) (s : State) (h : P s) : P s.settleRow := by
  unfold State.settleRow
  split
  · exact k.releaseProposal _ (k.takeNoteStart s h)
  · exact h

/-- R107: DWELL_EXPIRY. -/
theorem Kept.dwellRow (k : Kept P) (s : State) (h : P s) : P s.dwellRow := by
  unfold State.dwellRow
  split
  · exact k.releaseProposal _ (k.takeDwell s h)
  · exact h

/-- R167: a record of a command. -/
theorem Kept.decoded (k : Kept P) (s : State) (src : Manual) (c : Cmd) (body : State → Answer) (hb : ∀ t, P t → P (body t).1) (h : P s) :
    P (s.decoded src c body) := by
  unfold State.decoded
  split
  · exact k.reply _ _ _ (hb s h)
  · exact k.reply _ _ _ h

/-- R167: a record, after the last hop. -/
theorem Kept.command (k : Kept P) (s : State) (src : Manual) (c : Cmd) (body : State → Answer) (hb : ∀ t, P t → P (body t).1) (h : P s) :
    P (s.command src c body) := k.decoded _ src c body hb (k.complete s h)

/-- R107: a record that may write KEY or SCALE. -/
theorem Kept.commandMeeting (k : Kept P) (s : State) (src : Manual) (c : Cmd) (body : State → Answer) (hb : ∀ t, P t → P (body t).1)
    (h : P s) : P (s.commandMeeting src c body) := k.meeting s _ (fun t ht => k.decoded t src c body hb ht) h

/-- R107: a KEYTRACK record. -/
theorem Kept.commandTracking (k : Kept P) (s : State) (src : Manual) (c : Cmd) (body : State → Answer) (hb : ∀ t, P t → P (body t).1)
    (h : P s) : P (s.commandTracking src c body) := k.decoded _ src c body hb (k.completeButDecay s h)

/-! ### The read commands change no state -/

theorem State.answerReadstatus_state (s : State) : (s.answerReadstatus).1 = s := by
  rfl

theorem State.answerReadcontext_state (s : State) : (s.answerReadcontext).1 = s := by
  rfl

theorem State.answerReadvoice_state (s : State) (voice : Byte) : (s.answerReadvoice voice).1 = s := by
  simp only [State.answerReadvoice, answer]; (repeat' split) <;> rfl

theorem State.answerReadcue_state (s : State) (mark step : Byte) : (s.answerReadcue mark step).1 = s := by
  simp only [State.answerReadcue, answer]; (repeat' split) <;> rfl

theorem State.answerReadtable_state (s : State) (table slot : Byte) : (s.answerReadtable table slot).1 = s := by
  simp only [State.answerReadtable, answer]; (repeat' split) <;> rfl

theorem State.answerReadkeytrk_state (s : State) : (s.answerReadkeytrk).1 = s := by
  rfl

/-- R167: a routed record. -/
theorem Kept.route (k : Kept P) (s : State) (i : Instr) (h : P s) : P (s.route i) := by
  cases i <;> first
    | exact h
    | skip
  case setkey => exact k.commandMeeting _ _ _ _ (fun t ht => k.setkey t _ _ _ ht) h
  case setscale => exact k.commandMeeting _ _ _ _ (fun t ht => k.setscale t _ _ _ ht) h
  case setchord => exact k.command _ _ _ _ (fun t ht => k.setchord t _ _ _ ht) h
  case unpin => exact k.commandMeeting _ _ _ _ (fun t ht => k.unpin t _ _ ht) h
  case switchesPut => exact k.command _ _ _ _ (fun t ht => k.put t _ _ ht) h
  case switchesSet => exact k.command _ _ _ _ (fun t ht => k.set t _ _ ht) h
  case switchesClear => exact k.command _ _ _ _ (fun t ht => k.clear t _ _ ht) h
  case locksw => exact k.command _ _ _ _ (fun t ht => k.locksw t _ ht) h
  case hush => exact k.command _ _ _ _ (fun t ht => k.hush t _ ht) h
  case resume => exact k.command _ _ _ _ (fun t ht => k.resume t _ ht) h
  case cuenext => exact k.commandMeeting _ _ _ _ (fun t ht => k.cuenext t ht) h
  case cueprev => exact k.commandMeeting _ _ _ _ (fun t ht => k.cueprev t ht) h
  case cuegoto => exact k.commandMeeting _ _ _ _ (fun t ht => k.cuegoto t _ ht) h
  case cuestop => exact k.command _ _ _ _ (fun t ht => k.cuestop t ht) h
  case cueload => exact k.command _ _ _ _ (fun t ht => k.cueload t _ _ ht) h
  case cuelen => exact k.command _ _ _ _ (fun t ht => k.cuelen t _ _ ht) h
  case loadscale => exact k.commandMeeting _ _ _ _ (fun t ht => k.loadscale t _ _ _ ht) h
  case loadshape => exact k.command _ _ _ _ (fun t ht => k.loadshape t _ _ ht) h
  case loadplan => exact k.command _ _ _ _ (fun t ht => k.loadplan t _ _ _ ht) h
  case bind => exact k.command _ _ _ _ (fun t ht => k.bind t _ _ _ ht) h
  case tracker => exact k.command _ _ _ _ (fun t ht => k.tracker t _ ht) h
  case learn => exact k.command _ _ _ _ (fun t ht => k.learn t _ ht) h
  case rate => exact k.command _ _ _ _ (fun t ht => k.rate t _ ht) h
  case remeasure => exact k.command _ _ _ _ (fun t ht => k.remeasure t _ ht) h
  case chordline => exact k.command _ _ _ _ (fun t ht => k.line t _ _ ht) h
  case lineDisable => exact k.command _ _ _ _ (fun t ht => k.line t _ _ ht) h
  case lineEnable => exact k.command _ _ _ _ (fun t ht => k.line t _ _ ht) h
  case keytrack => exact k.commandTracking _ _ _ _ (fun t ht => k.keytrack t _ _ ht) h
  case keytrackClear => exact k.commandTracking _ _ _ _ (fun t ht => k.keytrack t _ _ ht) h
  case howl => exact k.command _ _ _ _ (fun t ht => k.howl t _ _ ht) h
  case twowire => exact k.command _ _ _ _ (fun t ht => k.twowire t _ ht) h
  case clearfault => exact k.command _ _ _ _ (fun t ht => k.clearfault t ht) h
  case ackflags => exact k.command _ _ _ _ (fun t ht => k.ackflags t _ ht) h
  case restart => exact k.command _ _ _ _ (fun t ht => k.restart t ht) h
  case readstatus src => exact k.command s src .readstatus (fun t => t.answerReadstatus) (fun t ht => by rw [State.answerReadstatus_state]; exact ht) h
  case readcontext src => exact k.command s src .readcontext (fun t => t.answerReadcontext) (fun t ht => by rw [State.answerReadcontext_state]; exact ht) h
  case readvoice src voice => exact k.command s src .readvoice (fun t => t.answerReadvoice voice) (fun t ht => by rw [State.answerReadvoice_state]; exact ht) h
  case readcue src mark step => exact k.command s src .readcue (fun t => t.answerReadcue mark step) (fun t ht => by rw [State.answerReadcue_state]; exact ht) h
  case readtable src table slot => exact k.command s src .readtable (fun t => t.answerReadtable table slot) (fun t ht => by rw [State.answerReadtable_state]; exact ht) h
  case readkeytrk src => exact k.command s src .readkeytrk (fun t => t.answerReadkeytrk) (fun t ht => by rw [State.answerReadkeytrk_state]; exact ht) h

/-- R167 to R169: a record handed to the decoder. -/
theorem Kept.record (k : Kept P) (s : State) (src : Manual) (code : Byte) (args : List Byte) (h : P s) : P (s.record src code args) := by
  unfold State.record
  split
  · exact k.route s _ h
  · exact k.reply _ _ _ (k.complete s h)

/-- R160, R162: the bytes of a transaction or transfer. -/
theorem Kept.judge (k : Kept P) (s : State) (src : Manual) (n : Nat) (l : List Byte) (h : P s) : P (s.judge src n l) := by
  unfold State.judge
  split
  · exact k.complete s h
  · exact k.reply _ _ _ (k.complete s h)
  · split
    · exact k.record _ _ _ _ h
    · exact k.reply _ _ _ (k.complete s h)

/-- R158: the release of a refused select. -/
theorem Kept.releaseRefused (k : Kept P) (s : State) (sel : Select) (h : P s) : P (s.releaseRefused sel) := by
  unfold State.releaseRefused
  split
  · exact k.reply _ _ _ (k.ports s _ rfl rfl h)
  · exact h

/-- R159: a FETCH. -/
theorem Kept.setupFetch (k : Kept P) (s : State) (sel : Select) (n : Nat) (h : P s) : P (s.setupFetch sel n) := by
  unfold State.setupFetch
  split
  · exact k.ports s _ rfl rfl h
  · exact k.releaseRefused s sel h

/-- R160: a command transaction. -/
theorem Kept.setupCommand (k : Kept P) (s : State) (sel : Select) (l : List Byte) (h : P s) : P (s.setupCommand sel l) := by
  unfold State.setupCommand
  split
  · exact k.setupFetch _ _ _ (k.complete s h)
  · split
    · exact k.judge _ _ _ _ (k.ports s _ rfl rfl h)
    · exact k.releaseRefused _ _ (k.complete s h)

/-- R162: a stage write. -/
theorem Kept.stageRecord (k : Kept P) (s : State) (w : WriteTransfer) (h : P s) : P (s.stageRecord w) := by
  unfold State.stageRecord
  split
  · exact k.judge _ _ _ _ (k.ports s _ (Ports.endTransfer_timeout _ _) (Ports.endTransfer_address _ _) h)
  · exact k.complete s h

/-- R163: a stage read. -/
theorem Kept.stageReply (k : Kept P) (s : State) (r : ReadTransfer) (h : P s) : P (s.stageReply r) := by
  unfold State.stageReply
  split
  · exact k.ports s _ (Ports.endTransfer_timeout _ _) (Ports.endTransfer_address _ _) h
  · exact h
  · exact h

/-- R164: the time-out counter. -/
theorem Kept.stageTimeOut (k : Kept P) (s : State) (h : P s) : P s.stageTimeOut := by
  unfold State.stageTimeOut
  split
  · exact k.twTimeout _ (k.ports s _ rfl rfl h)
  · exact h

/-- R158: a select's assertion leaves the stage port's address and setting. -/
theorem Ports.assertSelect_stage (p : Ports) (sel : Select) :
    (p.assertSelect sel).timeout = p.timeout ∧ (p.assertSelect sel).address = p.address := by
  unfold Ports.assertSelect
  split
  · exact ⟨rfl, rfl⟩
  · split <;> exact ⟨rfl, rfl⟩

/-- R161: a START leaves the stage port's address and setting. -/
theorem Ports.startTransfer_stage (p : Ports) (a : Byte) :
    (p.startTransfer a).timeout = p.timeout ∧ (p.startTransfer a).address = p.address := by
  unfold Ports.startTransfer
  split <;> exact ⟨rfl, rfl⟩

/-- Every command keeps what every operation keeps. -/
theorem Kept.exec (k : Kept P) (i : Instr) (s t : State) (h : P s) (e : Sys2Proof.Machine.exec i s = .next t) : P t := by
  cases i <;> injection e with e <;> subst e
  case powerOn => exact k.powerOn s _ h
  case frameSync => exact k.nextFrame _ _ _ (k.complete s h)
  case frameAbsence => exact k.absence _ (k.complete s h)
  case measurement => exact k.measurement _ _ _ _ (k.complete s h)
  case fadeStepCount => exact k.takeFadeStep s h
  case grainBoundary => exact k.takeBoundary s _ h
  case settleComplete => exact k.settleRow s h
  case releaseComplete => exact k.takeNoteOff s h
  case learnComplete => exact k.takeLearn s h
  case decayEvent => exact k.decayRow s h
  case dwellExpiry => exact k.dwellRow s h
  case howlDeclared => exact k.takeHowl s h
  case recoveryComplete => exact k.takeRecovery s h
  case character => exact k.meeting s _ (fun t ht => k.character t _ _ _ ht) h
  case matchEnd => exact k.meeting s _ (fun t ht => k.matchEnd t ht) h
  case lineBreak => exact k.lineBreak _ (k.complete s h)
  case silenceThreshold => exact k.takeSilence s h
  case timeOut => exact k.stageTimeOut _ (k.complete s h)
  case fetch => exact k.setupFetch _ _ _ (k.complete s h)
  case commandTransaction => exact k.setupCommand s _ _ h
  case refusedTransaction => exact k.releaseRefused _ _ (k.complete s h)
  case stageWrite => exact k.stageRecord s _ h
  case stageRead => exact k.stageReply _ _ (k.complete s h)
  case falseStart => exact k.falseStart _ _ _ _ (k.complete s h)
  case selectAssertion => exact k.ports _ _ (Ports.assertSelect_stage _ _).1 (Ports.assertSelect_stage _ _).2 (k.complete s h)
  case startCondition => exact k.ports _ _ (Ports.startTransfer_stage _ _).1 (Ports.startTransfer_stage _ _).2 (k.complete s h)
  case setkey x0 x1 x2 => exact k.route s (.setkey x0 x1 x2) h
  case setscale x0 x1 x2 => exact k.route s (.setscale x0 x1 x2) h
  case setchord x0 x1 x2 => exact k.route s (.setchord x0 x1 x2) h
  case unpin x0 x1 => exact k.route s (.unpin x0 x1) h
  case switchesPut x0 x1 => exact k.route s (.switchesPut x0 x1) h
  case switchesSet x0 x1 => exact k.route s (.switchesSet x0 x1) h
  case switchesClear x0 x1 => exact k.route s (.switchesClear x0 x1) h
  case locksw x0 x1 => exact k.route s (.locksw x0 x1) h
  case hush x0 => exact k.route s (.hush x0) h
  case resume x0 => exact k.route s (.resume x0) h
  case cuenext x0 => exact k.route s (.cuenext x0) h
  case cueprev x0 => exact k.route s (.cueprev x0) h
  case cuegoto x0 x1 => exact k.route s (.cuegoto x0 x1) h
  case cuestop x0 => exact k.route s (.cuestop x0) h
  case cueload x0 x1 x2 => exact k.route s (.cueload x0 x1 x2) h
  case cuelen x0 x1 x2 => exact k.route s (.cuelen x0 x1 x2) h
  case loadscale x0 x1 x2 x3 => exact k.route s (.loadscale x0 x1 x2 x3) h
  case loadshape x0 x1 x2 => exact k.route s (.loadshape x0 x1 x2) h
  case loadplan x0 x1 x2 x3 => exact k.route s (.loadplan x0 x1 x2 x3) h
  case bind x0 x1 x2 x3 => exact k.route s (.bind x0 x1 x2 x3) h
  case tracker x0 x1 => exact k.route s (.tracker x0 x1) h
  case learn x0 x1 => exact k.route s (.learn x0 x1) h
  case rate x0 x1 => exact k.route s (.rate x0 x1) h
  case remeasure x0 x1 => exact k.route s (.remeasure x0 x1) h
  case chordline x0 x1 x2 => exact k.route s (.chordline x0 x1 x2) h
  case lineDisable x0 x1 => exact k.route s (.lineDisable x0 x1) h
  case lineEnable x0 x1 => exact k.route s (.lineEnable x0 x1) h
  case keytrack x0 x1 => exact k.route s (.keytrack x0 x1) h
  case keytrackClear x0 x1 => exact k.route s (.keytrackClear x0 x1) h
  case howl x0 x1 x2 => exact k.route s (.howl x0 x1 x2) h
  case twowire x0 x1 => exact k.route s (.twowire x0 x1) h
  case clearfault x0 => exact k.route s (.clearfault x0) h
  case ackflags x0 x1 => exact k.route s (.ackflags x0 x1) h
  case restart x0 => exact k.route s (.restart x0) h
  case readstatus x0 => exact k.route s (.readstatus x0) h
  case readcontext x0 => exact k.route s (.readcontext x0) h
  case readvoice x0 x1 => exact k.route s (.readvoice x0 x1) h
  case readcue x0 x1 x2 => exact k.route s (.readcue x0 x1 x2) h
  case readtable x0 x1 x2 => exact k.route s (.readtable x0 x1 x2) h
  case readkeytrk x0 => exact k.route s (.readkeytrk x0) h

/-- Every step keeps what every operation keeps. -/
theorem Kept.step (k : Kept P) (s t : State) (h : P s) (e : Sys2Proof.Machine.step s = .next t) : P t := by
  unfold Sys2Proof.Machine.step at e
  split at e
  · exact k.exec _ _ _ (k.pending s _ h) e
  · injection e with e
    exact e ▸ h

end Sys2Proof.Machine
end

