-- ==== Sys2Proof/Laws/Ops.lean ====
section
/-! SUPPORT. One lemma per shared operation that says what it can do, to be cited instead of unfolding it. -/

namespace Sys2Proof.Machine

/-! ### Flags -/

/-- Raising a flag is idempotent. -/
theorem State.raise_raise (s : State) (f : Flag) : (s.raise f).raise f = s.raise f := by
  simp [State.raise, BitVec.or_assoc]

/-- R179: the order in which flags are set does not show. -/
theorem State.raise_comm (s : State) (f g : Flag) : (s.raise f).raise g = (s.raise g).raise f := by
  simp [State.raise, BitVec.or_assoc, BitVec.or_comm f.mask g.mask]

/-- R179: raising sets the flag named and leaves every other flag as it was. -/
theorem State.flag_raise (s : State) (f g : Flag) : (s.raise f).flag g = (s.flag g || decide (g = f)) := by
  cases f <;> cases g <;> simp [State.flag, State.raise, Flag.mask, Flag.bit]

/-! ### Field writes -/

/-- R54, R55, Table 4.2: what a write from an automatic source can do. -/
theorem Field.write_auto {α : Type} (f : Field α) (v : α) (a : Auto) (pin : Bool) :
    (f.pin = none ∧ f.write v (.auto a) pin = (⟨v, .source (.auto a), none, none⟩, .applied)) ∨
      ∃ y, f.pin = some y ∧ f.write v (.auto a) pin = ({ f with shadow := some ⟨v, a⟩ }, .shadowed) := by
  cases h : f.pin <;> simp [Field.write, h]

/-- R54, R56, R57, Table 4.2: what a write from a manual source can do. -/
theorem Field.write_manual {α : Type} (f : Field α) (v : α) (m : Manual) (pin : Bool) :
    (f.pin = none ∧ f.write v (.manual m) pin = (⟨v, .source (.manual m), if pin then some m else none, none⟩, .applied)) ∨
      (∃ y, f.pin = some y ∧ rank y ≤ rank m ∧
        f.write v (.manual m) pin = (⟨v, .source (.manual m), some (higher m y), none⟩, .applied)) ∨
      ∃ y, f.pin = some y ∧ rank m < rank y ∧ f.write v (.manual m) pin = (f, .outranked) := by
  cases h : f.pin with
  | none => simp [Field.write, h]
  | some y =>
    by_cases hr : rank y ≤ rank m
    · simp [Field.write, h, hr]
    · simp [Field.write, h, hr, Nat.lt_of_not_le hr]

/-- R60, R61: what a release can do. -/
theorem Field.release_cases {α : Type} (f : Field α) (m : Manual) :
    (f.pin = none ∧ f.release m = (f, .applied)) ∨
      (∃ y, f.pin = some y ∧ rank m < rank y ∧ f.release m = (f, .outranked)) ∨
      ∃ y, f.pin = some y ∧ rank y ≤ rank m ∧
        ((∃ x, f.shadow = some x ∧ f.release m = (⟨x.value, .source (.auto x.source), none, none⟩, .applied)) ∨
          (f.shadow = none ∧ f.release m = ({ f with pin := none }, .applied))) := by
  cases h : f.pin with
  | none => simp [Field.release, h]
  | some y =>
    by_cases hr : rank y ≤ rank m
    · cases hs : f.shadow <;> simp [Field.release, h, hr, hs]
    · simp [Field.release, h, hr, Nat.lt_of_not_le hr]

/-- The ranks of two manual sources are equal only when the sources are. -/
theorem rank_injective {a b : Manual} (h : rank a = rank b) : a = b := by
  cases a <;> cases b <;> first | rfl | simp [rank] at h

/-! ### The switch word -/

/-- R64: a cue step's masks, bit by bit. -/
theorem cueSwitchWord_bit (w lock set clear : BitVec 8) {i : Nat} (h : i < 8) :
    (cueSwitchWord w lock set clear).getLsbD i =
      if lock.getLsbD i = true then w.getLsbD i else (w.getLsbD i || set.getLsbD i) && !clear.getLsbD i := by
  rw [BitVec.getLsbD_eq_getElem h]
  cases hl : lock[i] <;> simp [cueSwitchWord, h, hl]

/-- R66: a switch write can flush the queue only when CHORD goes from set to clear. -/
theorem State.setSwitches_cases (s : State) (w : BitVec 8) :
    ((switchSet s.ctx.switches .chord = true ∧ switchSet w .chord = false) ∧
        s.setSwitches w = { s with ctx := { s.ctx with switches := w } }.flushQueue) ∨
      (¬(switchSet s.ctx.switches .chord = true ∧ switchSet w .chord = false) ∧
        s.setSwitches w = { s with ctx := { s.ctx with switches := w } }) := by
  cases h1 : switchSet s.ctx.switches .chord <;> cases h2 : switchSet w .chord <;> simp [State.setSwitches, h1, h2]

/-! ### Publications -/

/-- R70: a CONTEXT publication is made when a value in force, the usability, the table contents or the switch word changed,
and otherwise nothing happens. -/
theorem State.publishChanges_cases (s : State) (before : Context) (table : Bool) :
    ((before.changes s.ctx table).any = false ∧ s.publishChanges before table = s) ∨
      ((before.changes s.ctx table).any = true ∧
        s.publishChanges before table = s.deliver ⟨.context, s.ctx.published, before.changes s.ctx table⟩) := by
  cases h : (before.changes s.ctx table).any <;> simp [State.publishChanges, State.publish, h]

/-- R70: nothing changed exactly when every item is as it was and no table contents in force changed. -/
theorem Context.changes_any (before after : Context) (table : Bool) :
    (before.changes after table).any = false ↔
      before.key.value = after.key.value ∧ before.scale.value = after.scale.value ∧ before.chord.value = after.chord.value ∧
        before.usable = after.usable ∧ table = false ∧ before.switches = after.switches := by
  simp [Context.changes, Changes.any, Changes.ordinary, and_assoc]

/-- R71: where the queue head made no change, the list of a note start is that of the cue step. -/
@[simp] theorem Context.noteChanges_self (c d : Context) : c.noteChanges c d = c.changes d false := by
  simp [Context.noteChanges, Context.changes]

/-- R71: a note start lists CHORD when either step changed it. -/
theorem Context.noteChanges_chord (a b c : Context) :
    (a.noteChanges b c).chord = true ↔ a.chord.value ≠ b.chord.value ∨ b.chord.value ≠ c.chord.value := by
  simp [Context.noteChanges, Context.changes]

/-- R70, R109: after a publication the resolver's copy is the context it carries. -/
@[simp] theorem State.deliver_copy (s : State) (p : Publication) : (s.deliver p).copy = p.context := rfl

/-- R117, R129, R137: what a publication makes of one voice: the resolver's and the renderer's part of it, and the sound
condition tested afresh. -/
theorem State.deliver_voice (s : State) (p : Publication) (i : Fin 4) :
    (s.deliver p).voices.get i =
      let v := (s.voices.get i).afterPublication p ⟨s.tables, p.context, s.decider.state.note, s.decider.dev⟩ i
      { v with ren := v.ren.retest (s.soundCondition v.ren) } := by
  simp [State.deliver, State.retest, State.soundCondition, State.noteTerm]

/-- R70, R91: a publication and a move of the frame assembler commute. -/
theorem State.publishChanges_setAssembler (s : State) (before : Context) (table : Bool) (a : Assembler) :
    (s.publishChanges before table).setAssembler a = (s.setAssembler a).publishChanges before table := by
  rcases State.publishChanges_cases s before table with ⟨h, e⟩ | ⟨h, e⟩ <;>
    rcases State.publishChanges_cases (s.setAssembler a) before table with ⟨h', e'⟩ | ⟨h', e'⟩ <;>
    first
      | rw [e, e']; rfl
      | simp_all

/-! ### Decay events (R107) -/

/-- R103: what the taking of a proposal can do: nothing where none waits, else a write of the key tracker's to KEY, with its
publication. -/
theorem State.takeProposal_cases (s : State) :
    (s.due.proposal = none ∧ s.takeProposal = s) ∨
      ∃ k, s.due.proposal = some k ∧
        s.takeProposal = ({ s with due := { s.due with proposal := none } }.autoKey k .keytrk).publishChanges s.ctx false := by
  cases h : s.due.proposal <;> simp [State.takeProposal, h]

/-- R103: after it no proposal waits, and every other completion is as due as before. -/
@[simp] theorem State.takeProposal_due (s : State) : s.takeProposal.due = { s.due with proposal := none } := by
  cases h : s.due.proposal with
  | none =>
    have e : s.takeProposal = s := by simp [State.takeProposal, h]
    rw [e, ← h]
  | some k => simp [State.takeProposal, h]

/-- R101: a decay event that is not due makes no evaluation. -/
theorem State.takeEvaluation_not_due (s : State) (h : s.due.decay = false) : s.takeEvaluation = s := by
  simp [State.takeEvaluation, h]

/-- R107: where no proposal waits before or after it, an event that meets a decay event acts as after the completions. -/
theorem State.meeting_of_no_proposal (s : State) (f : State → State) (h : s.evaluated.due.proposal = none)
    (hf : (f s.evaluated).due.proposal = none) : s.meeting f = f s.complete := by
  simp [State.meeting, State.complete, State.takeProposal, h, hf]

/-- R107: what the release of a proposal can do. -/
theorem State.releaseProposal_cases (s : State) :
    (s.due.mayEnterStep = true ∧ s.releaseProposal = s) ∨ (s.due.mayEnterStep = false ∧ s.releaseProposal = s.takeProposal) := by
  cases h : s.due.mayEnterStep <;> simp [State.releaseProposal, h]

/-! ### The chord queue -/

/-- R95: what an append can do. -/
theorem State.appendQueue_cases (s : State) (e : QueueEntry) :
    (s.queue.length < 4 ∧ s.appendQueue e = { s with queue := s.queue ++ [e] }) ∨
      (4 ≤ s.queue.length ∧ s.appendQueue e = { s.raise .queueSlip with queue := s.queue.drop 1 ++ [e] }) := by
  by_cases h : s.queue.length < 4
  · simp [State.appendQueue, h]
  · simp [State.appendQueue, h, Nat.le_of_not_lt h]

/-- R96: the head is taken when it is there with the matching trigger. -/
theorem queueHead_some {q : List QueueEntry} {t : Trigger} {v : Option Chord} :
    queueHead q t = some v ↔ ∃ rest, q = ⟨v, t⟩ :: rest := by
  cases q with
  | nil => simp [queueHead]
  | cons e rest =>
    obtain ⟨w, x⟩ := e
    by_cases h : x = t
    · subst h; simp [queueHead]
    · simp [queueHead, h]

/-- R71, R72: step 1 of a note operation. -/
theorem State.takeHead_cases (s : State) (t : Trigger) :
    (∃ v rest, s.queue = ⟨v, t⟩ :: rest ∧ s.takeHead t = { s with queue := rest }.autoChord v .chordline) ∨
      ((∀ v rest, s.queue ≠ ⟨v, t⟩ :: rest) ∧ s.takeHead t = s) := by
  cases h : queueHead s.queue t with
  | none =>
    refine .inr ⟨fun v rest hq => ?_, by simp [State.takeHead, h]⟩
    rw [queueHead_some.mpr ⟨rest, hq⟩] at h
    cases h
  | some v =>
    obtain ⟨rest, hq⟩ := queueHead_some.mp h
    exact .inl ⟨v, rest, hq, by simp [State.takeHead, hq, queueHead]⟩

/-! ### One voice -/

/-- R126, R127, R130: what the forming of an interval goal can do: an unchanged goal leaves the voice as it is, and another is
kept and taken by the renderer. -/
theorem Voice.setGoal_cases (v : Voice) (dev : Int) (t n : Nat) :
    (v.res.goal = some (32 * ((t : Int) - n)) ∧ v.setGoal dev t n = v) ∨
      (v.res.goal ≠ some (32 * ((t : Int) - n)) ∧
        v.setGoal dev t n = ⟨{ v.res with goal := some (32 * ((t : Int) - n)) }, v.ren.takeGoal v.res.plan dev (32 * ((t : Int) - n))⟩) := by
  by_cases h : v.res.goal = some (32 * ((t : Int) - n)) <;> simp [Voice.setGoal, h]

/-- R137: what testing the sound condition can do to a voice's state. -/
theorem RenderRecord.retest_sounds (r : RenderRecord) (c : Bool) :
    ((r.retest c).state = .rising ∨ (r.retest c).state = .sounding) ↔ c = true := by
  cases c <;> cases h : r.state <;> simp [RenderRecord.retest, h, RenderRecord.leaveIdle, RenderRecord.adoptShift] <;> (try split) <;>
    first | omega | simp_all

/-- R133: the requested shift stays within two octaves. -/
theorem clampShift_range (x : Int) : -768 ≤ clampShift x ∧ clampShift x ≤ 768 := by
  unfold clampShift
  omega

/-- R131: at its last step a glide ends on the goal. -/
theorem RenderRecord.glideStep_last (r : RenderRecord) (g : Glide) (h : r.glide = some g) (h1 : g.remaining ≤ 1) :
    r.glideStep = { r with interval := some g.goal, glide := none } := by
  have h0 : g.remaining - 1 = 0 := by omega
  simp [RenderRecord.glideStep, h, h0]

/-- R137, R138: the four ways a sound condition test can go for a voice: it starts, returns, turns to fall, or stands. -/
theorem RenderRecord.retest_cases (r : RenderRecord) (c : Bool) :
    (c = true ∧ r.state = .idle ∧ r.retest c = r.leaveIdle) ∨
      (c = true ∧ r.state = .falling ∧ r.retest c = { r with state := if r.fade = 8 then .sounding else .rising }) ∨
      (c = false ∧ (r.state = .rising ∨ r.state = .sounding) ∧ r.retest c = { r with state := if r.fade = 0 then .idle else .falling }) ∨
      r.retest c = r := by
  cases c <;> cases h : r.state <;> simp [RenderRecord.retest, h]

/-! ### Records -/

/-- R160, R162: what judging a transaction's bytes can do. -/
theorem State.judge_cases (s : State) (src : Manual) (limit : Nat) (bytes : List Byte) :
    (bytes = [] ∧ s.judge src limit bytes = s.complete) ∨
      (∃ code args, bytes = code :: BitVec.ofNat 8 args.length :: args ∧ args.length + 2 ≤ limit ∧
        s.judge src limit bytes = s.record src code args) ∨
      ∃ code rest, bytes = code :: rest ∧ s.judge src limit bytes = s.complete.reply src ⟨code, .format, []⟩ := by
  match bytes with
  | [] => exact .inl ⟨rfl, rfl⟩
  | [code] => exact .inr (.inr ⟨code, [], rfl, rfl⟩)
  | code :: n :: args =>
    by_cases h : args.length = n.toNat ∧ args.length + 2 ≤ limit
    · refine .inr (.inl ⟨code, args, ?_, h.2, by simp only [State.judge, if_pos h]⟩)
      rw [h.1, BitVec.ofNat_toNat]
      simp
    · exact .inr (.inr ⟨code, n :: args, rfl, by simp only [State.judge, if_neg h]⟩)

end Sys2Proof.Machine
end

