-- ==== Sys2Proof/Laws/PerInstr.lean ====
section
/-! SUPPORT. What holds of every command as syntax, one lemma per constructor: the record of a well-formed command fits in
a setup port transaction and is none that a FETCH would be taken for (R158, R160, Table 10.1). -/

namespace Sys2Proof.Laws.WellFormedRecord

set_option linter.unusedSimpArgs false

/-- R158, R160: the bytes of a well-formed command's record, code byte first, are at least 2 and at most 32, and the first
is not H'00. -/
def Statement (i : Instr) : Prop :=
  i.wellFormed = true → ∀ e, encodeRecord i = some e → 2 ≤ e.2.length ∧ e.2.length ≤ 32 ∧ e.2.head? ≠ some 0#8

/-- A command that travels as no record meets the statement. -/
theorem statement_of_none {i : Instr} (h : encodeRecord i = none) : Statement i := by
  intro _ e he
  rw [h] at he
  cases he

/-- A command whose record is known meets the statement when that record does. -/
theorem statement_of_some {i : Instr} {e : Manual × List Byte} (h : encodeRecord i = some e)
    (hl : 2 ≤ e.2.length ∧ e.2.length ≤ 32 ∧ e.2.head? ≠ some 0#8) : Statement i := by
  intro _ e' he
  rw [h] at he
  cases he
  exact hl

theorem powerOn (sa : BitVec 2) : Statement (.powerOn sa) := statement_of_none rfl
theorem frameSync (word : SlotWord) (bits : Nat) : Statement (.frameSync word bits) := statement_of_none rfl
theorem frameAbsence : Statement .frameAbsence := statement_of_none rfl
theorem measurement (ticks : Nat) (analysis : Analysis) (order : RenderOrder) : Statement (.measurement ticks analysis order) := statement_of_none rfl
theorem fadeStepCount : Statement .fadeStepCount := statement_of_none rfl
theorem grainBoundary (voice : Fin 4) : Statement (.grainBoundary voice) := statement_of_none rfl
theorem settleComplete : Statement .settleComplete := statement_of_none rfl
theorem releaseComplete : Statement .releaseComplete := statement_of_none rfl
theorem learnComplete : Statement .learnComplete := statement_of_none rfl
theorem decayEvent : Statement .decayEvent := statement_of_none rfl
theorem dwellExpiry : Statement .dwellExpiry := statement_of_none rfl
theorem howlDeclared : Statement .howlDeclared := statement_of_none rfl
theorem recoveryComplete : Statement .recoveryComplete := statement_of_none rfl
theorem character (s1 s2 s3 : BitVec 12) : Statement (.character s1 s2 s3) := statement_of_none rfl
theorem matchEnd : Statement .matchEnd := statement_of_none rfl
theorem lineBreak : Statement .lineBreak := statement_of_none rfl
theorem silenceThreshold : Statement .silenceThreshold := statement_of_none rfl
theorem timeOut : Statement .timeOut := statement_of_none rfl
theorem fetch (sel : Select) (clocked : Nat) : Statement (.fetch sel clocked) := statement_of_none rfl
theorem commandTransaction (sel : Select) (bytes : List Byte) : Statement (.commandTransaction sel bytes) := statement_of_none rfl
theorem refusedTransaction (sel : Select) : Statement (.refusedTransaction sel) := statement_of_none rfl
theorem stageWrite (offered : WriteTransfer) : Statement (.stageWrite offered) := statement_of_none rfl
theorem stageRead (count : ReadTransfer) : Statement (.stageRead count) := statement_of_none rfl
theorem setkey (src : Manual) (tonic pin : Byte) : Statement (.setkey src tonic pin) := statement_of_some rfl (by simp [Cmd.code, bytes16, bytes24])
theorem setscale (src : Manual) (slot pin : Byte) : Statement (.setscale src slot pin) := statement_of_some rfl (by simp [Cmd.code, bytes16, bytes24])
theorem setchord (src : Manual) (pin : Byte) (chord : ChordBytes) : Statement (.setchord src pin chord) := statement_of_some rfl (by simp [Cmd.code, bytes16, bytes24])
theorem unpin (src : Manual) (field : Byte) : Statement (.unpin src field) := statement_of_some rfl (by simp [Cmd.code, bytes16, bytes24])
theorem switchesPut (src : Manual) (arg : Byte) : Statement (.switchesPut src arg) := statement_of_some rfl (by simp [Cmd.code, bytes16, bytes24])
theorem switchesSet (src : Manual) (arg : Byte) : Statement (.switchesSet src arg) := statement_of_some rfl (by simp [Cmd.code, bytes16, bytes24])
theorem switchesClear (src : Manual) (arg : Byte) : Statement (.switchesClear src arg) := statement_of_some rfl (by simp [Cmd.code, bytes16, bytes24])
theorem locksw (src : Manual) (mask : Byte) : Statement (.locksw src mask) := statement_of_some rfl (by simp [Cmd.code, bytes16, bytes24])
theorem hush (src : Manual) : Statement (.hush src) := statement_of_some rfl (by simp [Cmd.code, bytes16, bytes24])
theorem resume (src : Manual) : Statement (.resume src) := statement_of_some rfl (by simp [Cmd.code, bytes16, bytes24])
theorem cuenext (src : Manual) : Statement (.cuenext src) := statement_of_some rfl (by simp [Cmd.code, bytes16, bytes24])
theorem cueprev (src : Manual) : Statement (.cueprev src) := statement_of_some rfl (by simp [Cmd.code, bytes16, bytes24])
theorem cuegoto (src : Manual) (step : Byte) : Statement (.cuegoto src step) := statement_of_some rfl (by simp [Cmd.code, bytes16, bytes24])
theorem cuestop (src : Manual) : Statement (.cuestop src) := statement_of_some rfl (by simp [Cmd.code, bytes16, bytes24])
theorem cueload (src : Manual) (step : Byte) (record : CueBytes) : Statement (.cueload src step record) := by
  intro h e he
  simp only [Instr.wellFormed, decide_eq_true_eq] at h
  simp only [encodeRecord, encodeArgs, Option.map_some, Option.some.injEq] at he
  subst he
  refine ⟨by simp, ?_, by simp [Cmd.code]⟩
  simp [bytes16, List.length_flatMap]
  omega
theorem cuelen (src : Manual) (length wrap : Byte) : Statement (.cuelen src length wrap) := statement_of_some rfl (by simp [Cmd.code, bytes16, bytes24])
theorem loadscale (src : Manual) (slot : Byte) (members : BitVec 16) (rule : Byte) : Statement (.loadscale src slot members rule) := statement_of_some rfl (by simp [Cmd.code, bytes16, bytes24])
theorem loadshape (src : Manual) (slot : Byte) (members : BitVec 16) : Statement (.loadshape src slot members) := statement_of_some rfl (by simp [Cmd.code, bytes16, bytes24])
theorem loadplan (src : Manual) (slot : Byte) (plan : PlanBytes) (adoption : Byte) : Statement (.loadplan src slot plan adoption) := statement_of_some rfl (by simp [Cmd.code, bytes16, bytes24])
theorem bind (src : Manual) (voice slot adoption : Byte) : Statement (.bind src voice slot adoption) := statement_of_some rfl (by simp [Cmd.code, bytes16, bytes24])
theorem tracker (src : Manual) (settings : TrackerBytes) : Statement (.tracker src settings) := statement_of_some rfl (by simp [Cmd.code, bytes16, bytes24])
theorem learn (src : Manual) (method : Byte) : Statement (.learn src method) := statement_of_some rfl (by simp [Cmd.code, bytes16, bytes24])
theorem rate (src : Manual) (settings : RateBytes) : Statement (.rate src settings) := statement_of_some rfl (by simp [Cmd.code, bytes16, bytes24])
theorem remeasure (src : Manual) (settings : RateBytes) : Statement (.remeasure src settings) := statement_of_some rfl (by simp [Cmd.code, bytes16, bytes24])
theorem chordline (src : Manual) (settings : LineBytes) (enable : Byte) : Statement (.chordline src settings enable) := statement_of_some rfl (by simp [Cmd.code, bytes16, bytes24])
theorem lineDisable (src : Manual) (settings : LineBytes) : Statement (.lineDisable src settings) := statement_of_none rfl
theorem lineEnable (src : Manual) (settings : LineBytes) : Statement (.lineEnable src settings) := statement_of_none rfl
theorem keytrack (src : Manual) (settings : KeytrackBytes) : Statement (.keytrack src settings) := statement_of_some rfl (by simp [Cmd.code, bytes16, bytes24])
theorem keytrackClear (src : Manual) (settings : KeytrackBytes) : Statement (.keytrackClear src settings) := statement_of_some rfl (by simp [Cmd.code, bytes16, bytes24])
theorem howl (src : Manual) (enable : Byte) (window : BitVec 16) : Statement (.howl src enable window) := statement_of_some rfl (by simp [Cmd.code, bytes16, bytes24])
theorem twowire (src : Manual) (timeout : Byte) : Statement (.twowire src timeout) := statement_of_some rfl (by simp [Cmd.code, bytes16, bytes24])
theorem clearfault (src : Manual) : Statement (.clearfault src) := statement_of_some rfl (by simp [Cmd.code, bytes16, bytes24])
theorem ackflags (src : Manual) (mask : BitVec 16) : Statement (.ackflags src mask) := statement_of_some rfl (by simp [Cmd.code, bytes16, bytes24])
theorem restart (src : Manual) : Statement (.restart src) := statement_of_some rfl (by simp [Cmd.code, bytes16, bytes24])
theorem readstatus (src : Manual) : Statement (.readstatus src) := statement_of_some rfl (by simp [Cmd.code, bytes16, bytes24])
theorem readcontext (src : Manual) : Statement (.readcontext src) := statement_of_some rfl (by simp [Cmd.code, bytes16, bytes24])
theorem readvoice (src : Manual) (voice : Byte) : Statement (.readvoice src voice) := statement_of_some rfl (by simp [Cmd.code, bytes16, bytes24])
theorem readcue (src : Manual) (mark step : Byte) : Statement (.readcue src mark step) := statement_of_some rfl (by simp [Cmd.code, bytes16, bytes24])
theorem readtable (src : Manual) (table slot : Byte) : Statement (.readtable src table slot) := statement_of_some rfl (by simp [Cmd.code, bytes16, bytes24])
theorem readkeytrk (src : Manual) : Statement (.readkeytrk src) := statement_of_some rfl (by simp [Cmd.code, bytes16, bytes24])
theorem falseStart (s1 s2 s3 : Bool) : Statement (.falseStart s1 s2 s3) := statement_of_none rfl
theorem selectAssertion (sel : Select) : Statement (.selectAssertion sel) := statement_of_none rfl
theorem startCondition (address : Byte) : Statement (.startCondition address) := statement_of_none rfl

end Sys2Proof.Laws.WellFormedRecord
end

