-- ==== Sys2Proof/Laws/VoiceKept.lean ====
section
/-! SUPPORT. A property of one voice that each of the moves of a voice keeps is kept, for all four voices, by every step. -/

namespace Sys2Proof.Machine

/-! ### The four voices -/

theorem Quad.All.mapIdx {α β : Type} {p : α → Prop} {r : β → Prop} {f : Fin 4 → α → β} (hf : ∀ i x, p x → r (f i x)) {q : Quad α}
    (h : q.All p) : (q.mapIdx f).All r := ⟨hf _ _ h.1, hf _ _ h.2.1, hf _ _ h.2.2.1, hf _ _ h.2.2.2⟩

theorem Quad.All.map {α β : Type} {p : α → Prop} {r : β → Prop} {f : α → β} (hf : ∀ x, p x → r (f x)) {q : Quad α} (h : q.All p) :
    (q.map f).All r := ⟨hf _ h.1, hf _ h.2.1, hf _ h.2.2.1, hf _ h.2.2.2⟩

theorem Quad.All.update {α : Type} {p : α → Prop} {f : α → α} (hf : ∀ x, p x → p (f x)) {q : Quad α} (n : Fin 4) (h : q.All p) :
    (q.update n f).All p :=
  Quad.All.mapIdx (fun i x hx => by split; exacts [hf x hx, hx]) h

theorem Quad.All.get {α : Type} {p : α → Prop} {q : Quad α} (h : q.All p) (i : Fin 4) : p (q.get i) := by
  match i with
  | 0 => exact h.1
  | 1 => exact h.2.1
  | 2 => exact h.2.2.1
  | 3 => exact h.2.2.2

/-! ### The moves of one voice -/

/-- The moves of one voice, each keeping `Q`. -/
structure VoiceKept (Q : Voice → Prop) : Prop where
  atReset : ∀ slot plans, Q (.atReset slot plans)
  retest : ∀ v c, Q v → Q { v with ren := v.ren.retest c }
  cut : ∀ v, Q v → Q { v with ren := v.ren.cut }
  hopWork : ∀ v dev, Q v → Q { v with ren := v.ren.hopWork v.res.plan.follow dev }
  fadeStep : ∀ v, Q v → Q { v with ren := v.ren.fadeStep }
  takeBoundary : ∀ v, Q v → Q { v with ren := v.ren.takeBoundary }
  grainFrame : ∀ v n, Q v → Q { v with ren := v.ren.grainFrame n }
  afterPublication : ∀ v p e i, Q v → Q (v.afterPublication p e i)
  stage : ∀ v e i p h, Q v → Q (v.stage e i p h)

variable {Q : Voice → Prop}

/-- All four voices have `Q`. -/
abbrev State.Voices (Q : Voice → Prop) (s : State) : Prop := s.voices.All Q

theorem State.Voices.same {s t : State} (h : s.Voices Q) (e : t.voices = s.voices) : t.Voices Q := by
  unfold State.Voices at *
  rwa [e]

theorem VoiceKept.mapRen (_ : VoiceKept Q) {f : RenderRecord → RenderRecord} (hf : ∀ v, Q v → Q { v with ren := f v.ren }) {s : State}
    (h : s.Voices Q) : (s.mapRen f).Voices Q := Quad.All.map hf h

theorem VoiceKept.retestAll (k : VoiceKept Q) {s : State} (h : s.Voices Q) : s.retest.Voices Q :=
  k.mapRen (fun v hv => k.retest v _ hv) h

theorem VoiceKept.cutAll (k : VoiceKept Q) {s : State} (h : s.Voices Q) : s.cutVoices.Voices Q := k.mapRen k.cut h

theorem VoiceKept.hopAll (k : VoiceKept Q) {s : State} (h : s.Voices Q) : s.hopWork.Voices Q :=
  Quad.All.map (fun v hv => k.hopWork v _ hv) h

theorem VoiceKept.fadeAll (k : VoiceKept Q) {s : State} (h : s.Voices Q) : s.fadeStep.Voices Q := k.mapRen k.fadeStep h

theorem VoiceKept.deliver (k : VoiceKept Q) {s : State} (h : s.Voices Q) (p : Publication) : (s.deliver p).Voices Q :=
  k.retestAll (Quad.All.mapIdx (fun i v hv => k.afterPublication v p _ i hv) h)

theorem VoiceKept.publishChanges (k : VoiceKept Q) {s : State} (h : s.Voices Q) (b : Context) (t : Bool) : (s.publishChanges b t).Voices Q := by
  unfold State.publishChanges
  dsimp only
  split
  · exact k.deliver h _
  · exact h

theorem VoiceKept.stageOn (k : VoiceKept Q) {s : State} (h : s.Voices Q) (i : Fin 4) (p : Staged) (x : Handing) : (s.stageOn i p x).Voices Q :=
  Quad.All.update (fun v hv => k.stage v _ i p x hv) i h

theorem VoiceKept.stageStep (k : VoiceKept Q) {s : State} (h : s.Voices Q) (c : CueStep) (x : Handing) : (s.stageStep c x).Voices Q := by
  unfold State.stageStep
  generalize c.bindings = l
  induction l generalizing s with
  | nil => exact h
  | cons b l ih => exact ih (k.stageOn h _ _ _)

theorem VoiceKept.enterStep (k : VoiceKept Q) {s : State} (h : s.Voices Q) (j : Fin 64) : (s.enterStep j).Voices Q := by
  have d : ((s.writeStepFields (s.tables.cueStep j)).writeStepSwitches (s.tables.cueStep j)).Voices Q := h.same (by simp)
  exact (k.retestAll (k.stageStep (k.publishChanges d s.ctx false) (s.tables.cueStep j) .next)).same (State.setCursor_frame _ _ _).2.2.2.2.2.2.2.2.2.2.2.1

theorem VoiceKept.enterStepHeld (k : VoiceKept Q) {s : State} (h : s.Voices Q) (j : Fin 64) : (s.enterStepHeld j).Voices Q := by
  have d : ((s.writeStepFields (s.tables.cueStep j)).writeStepSwitches (s.tables.cueStep j)).Voices Q := h.same (by simp)
  exact (k.stageStep d (s.tables.cueStep j) .held).same (State.setCursor_frame _ _ _).2.2.2.2.2.2.2.2.2.2.2.1

theorem VoiceKept.advance (k : VoiceKept Q) {s : State} (h : s.Voices Q) : s.advance.Voices Q := by
  unfold State.advance
  split
  · exact h
  · split
    · exact k.enterStep h _
    · exact h.same (by simp)

theorem VoiceKept.cueOnset (k : VoiceKept Q) {s : State} (h : s.Voices Q) : s.cueOnset.Voices Q := by
  unfold State.cueOnset State.advanceHeld
  (repeat' split) <;> first | exact h | exact (k.enterStepHeld h _).same rfl

theorem VoiceKept.noteStart (k : VoiceKept Q) {s : State} (h : s.Voices Q) (x : PublicationKind) : (s.noteStart x).Voices Q := by
  unfold State.noteStart State.publish
  exact k.deliver ((k.cueOnset (h.same (by simp) : (s.takeHead .onset).Voices Q)).same (by simp)) _

theorem VoiceKept.noteOff (k : VoiceKept Q) {s : State} (h : s.Voices Q) (n : Nat) : (s.noteOff n).Voices Q := by
  unfold State.noteOff State.publishNote State.publish
  exact k.deliver (h.same (by simp)) _

theorem VoiceKept.enterBypass (k : VoiceKept Q) {s : State} (h : s.Voices Q) : s.enterBypass.Voices Q := by
  unfold State.enterBypass
  refine State.Voices.same (k.cutAll (s := { s with fault := { s.fault with output := .bypass } }) h) ?_
  simp

theorem VoiceKept.causeAppears (k : VoiceKept Q) {s : State} (h : s.Voices Q) (c : Cause) : (s.causeAppears c).Voices Q := by
  unfold State.causeAppears
  (repeat' split) <;> first | exact h | exact k.enterBypass h

theorem VoiceKept.handCondition (k : VoiceKept Q) {s : State} (h : s.Voices Q) (c : LineCondition) : (s.handCondition c).Voices Q := by
  unfold State.handCondition
  dsimp only
  split
  · exact h
  · exact k.publishChanges (h.same (by simp)) _ _

theorem VoiceKept.chordAt (k : VoiceKept Q) {s : State} (h : s.Voices Q) (v : Option Chord) (a : ApplyAt) : (s.chordAt v a).Voices Q := by
  cases a
  · exact k.publishChanges (h.same (by simp)) _ _
  · exact h.same (by simp [State.chordAt])
  · exact h.same (by simp [State.chordAt])

theorem VoiceKept.deriveCondition (k : VoiceKept Q) {s : State} (h : s.Voices Q) : s.deriveCondition.Voices Q := k.handCondition h _

theorem VoiceKept.frameContent (k : VoiceKept Q) {s : State} (h : s.Voices Q) (c : FrameContent) : (s.frameContent c).Voices Q := by
  cases c with
  | chord v a => exact k.chordAt h _ _
  | notes a l => exact h
  | key t x =>
    have d : ((s.autoKey t .chordline).autoScale x .chordline).Voices Q := h.same (by simp)
    exact k.publishChanges d _ _
  | alive => exact h

theorem VoiceKept.validFrame (k : VoiceKept Q) {s : State} (h : s.Voices Q) (c : FrameContent) : (s.validFrame c).Voices Q := by
  unfold State.validFrame
  dsimp only
  generalize e : State.deriveCondition _ = t
  have d : t.Voices Q := by rw [← e]; apply k.deriveCondition; exact h
  split
  · exact k.frameContent d c
  · exact d

theorem VoiceKept.completeFrame (k : VoiceKept Q) {s : State} (h : s.Voices Q) (f : FrameKind) (d : List Byte) :
    (s.completeFrame f d).Voices Q := by
  unfold State.completeFrame
  split
  · exact k.validFrame h _
  · exact h.same (by simp)

theorem VoiceKept.huntChar (k : VoiceKept Q) {s : State} (h : s.Voices Q) (c : LineChar) : (s.huntChar c).Voices Q := by
  unfold State.huntChar State.takeHeader
  dsimp only
  (repeat' split) <;> first | exact h.same (by simp) | exact k.completeFrame h _ _

theorem VoiceKept.frameChar (k : VoiceKept Q) {s : State} (h : s.Voices Q) (f : FrameKind) (n : Nat) (d : List Byte) (c : LineChar) :
    (s.frameChar f n d c).Voices Q := by
  unfold State.frameChar
  (repeat' split) <;>
    first | exact k.huntChar h _ | exact h.same (by simp) | exact k.completeFrame h _ _ | exact k.huntChar (h.same (by simp)) _

theorem VoiceKept.drain (k : VoiceKept Q) (n : Nat) {s : State} (h : s.Voices Q) : (State.drain n s).Voices Q := by
  induction n generalizing s with
  | zero => exact h
  | succ n ih =>
    refine ih ?_
    unfold State.takeChar
    (repeat' split) <;> first | exact h | (apply k.huntChar; exact h) | (apply k.frameChar; exact h)

theorem VoiceKept.receive (k : VoiceKept Q) {s : State} (h : s.Voices Q) (c : LineChar) : (s.receive c).Voices Q := by
  unfold State.receive
  split
  · apply k.drain; exact h
  · exact h.same (by simp)

theorem VoiceKept.character (k : VoiceKept Q) {s : State} (h : s.Voices Q) (s1 s2 s3 : BitVec 12) : (s.character s1 s2 s3).Voices Q := by
  unfold State.character
  dsimp only
  split
  · exact h
  · split
    · exact h.same (by simp)
    · exact k.receive (h.same (by simp)) _

theorem VoiceKept.matchEnd (k : VoiceKept Q) {s : State} (h : s.Voices Q) : s.matchEnd.Voices Q := by
  unfold State.matchEnd
  split
  · exact h
  · rename_i m _
    have d : (State.matchOutcome { s with matcher := none } m).Voices Q := by
      unfold State.matchOutcome
      (repeat' split) <;> first | exact h | exact h.same (by simp) | (apply k.chordAt; exact h)
    exact k.drain _ (d.same (by simp))

theorem VoiceKept.lineChanged (k : VoiceKept Q) {s : State} (h : s.Voices Q) (o : LineSettings) : (s.lineChanged o).Voices Q := by
  unfold State.lineChanged State.disableLine State.enableLine
  dsimp only
  split
  · exact k.handCondition (h.same (by simp)) _
  · split
    · apply k.handCondition; exact h
    · split <;> exact h

theorem VoiceKept.rateLoss (k : VoiceKept Q) {s : State} (h : s.Voices Q) : s.rateLoss.Voices Q :=
  k.retestAll (k.causeAppears (h.same (by simp)) _)

theorem VoiceKept.measure (k : VoiceKept Q) {s : State} (h : s.Voices Q) (m : Nat) : (s.measure m).1.Voices Q := by
  unfold State.measure State.measureAcquiring State.measureLocked
  dsimp only
  (repeat' split) <;> first | exact h | exact k.rateLoss h | exact h.same (by simp)

theorem VoiceKept.hop (k : VoiceKept Q) {s : State} (h : s.Voices Q) (a : Analysis) (o : RenderOrder) : (s.hop a o).Voices Q := by
  have d : s.recoveryHop.Voices Q := h.same (by simp)
  refine State.Voices.same (s := s.recoveryHop.hopRendering a o) ?_ (by simp [State.hop])
  cases o
  · exact k.retestAll ((k.hopAll (k.fadeAll d)).same (by simp))
  · exact k.retestAll (k.hopAll (k.fadeAll (d.same (by simp))))
  · exact (k.retestAll (k.fadeAll (d.same (by simp : (State.report s.recoveryHop a).voices = _)))).same rfl

theorem VoiceKept.takeBoundaries (k : VoiceKept Q) {s : State} (h : s.Voices Q) : s.takeBoundaries.Voices Q := k.mapRen k.takeBoundary h

/-- A property that every move of a voice keeps is kept, for all four voices, by every operation of the part. -/
theorem VoiceKept.kept (k : VoiceKept Q) : Kept (State.Voices Q) := by
  constructor
  case powerOn => exact fun s sa h => ⟨k.atReset _ _, k.atReset _ _, k.atReset _ _, k.atReset _ _⟩
  case takeHowl =>
    intro s h
    unfold State.takeHowl State.howlAppears
    (repeat' split) <;> first | exact h | (apply k.retestAll; first | exact h | (apply k.causeAppears; exact h))
  case takeRecovery =>
    intro s h
    unfold State.takeRecovery State.enterRun
    dsimp only
    (repeat' split) <;> first | exact h | (apply k.retestAll; exact h)
  case takeNoteStart => intro s h; unfold State.takeNoteStart; (repeat' split) <;> first | exact h | exact k.noteStart h _
  case takeNoteOff => intro s h; unfold State.takeNoteOff; (repeat' split) <;> first | exact h | exact k.noteOff h _
  case takeProposal =>
    intro s h
    unfold State.takeProposal
    split
    · exact k.publishChanges (h.same (by simp)) _ _
    · exact h
  case takeDwell => intro s h; unfold State.takeDwell; (repeat' split) <;> first | exact h | (apply k.advance; exact h)
  case takeSilence => intro s h; unfold State.takeSilence; (repeat' split) <;> first | exact h | (apply k.deriveCondition; exact h)
  case takeFadeStep => intro s h; unfold State.takeFadeStep; (repeat' split) <;> first | exact h | (apply k.fadeAll; exact h)
  case takeRender => intro s h; unfold State.takeRender; (repeat' split) <;> first | exact h | (apply k.hopAll; exact h)
  case takeBoundary => exact fun s i h => Quad.All.update k.takeBoundary i h
  case nextFrame =>
    intro s w b h
    have d : (s.takeBoundaries.beginFrame.moveSamples w b).Voices Q := k.takeBoundaries h
    have g := k.mapRen (f := fun r => r.grainFrame (s.takeBoundaries.beginFrame.moveSamples w b).renderer.grainLength)
      (fun v hv => k.grainFrame v _ hv) d
    exact g.same (by simp only [State.nextFrame, State.countFade]; (repeat' split) <;> rfl)
  case absence =>
    intro s h
    unfold State.absence State.rateAbsence
    (repeat' split) <;> first | exact h | exact k.rateLoss h
  case measurement =>
    intro s m a o h
    unfold State.measurement
    dsimp only
    (repeat' split) <;> first | exact h | (apply k.hop; apply k.measure; exact h) | (apply k.measure; exact h)
  case character => exact fun s a b c h => k.character h a b c
  case lineBreak =>
    intro s h
    unfold State.lineBreak
    split
    · exact k.handCondition (h.same (by simp)) _
    · exact h
  case matchEnd => exact fun s h => k.matchEnd h
  case put => exact fun s src a h => k.publishChanges (h.same (by simp)) _ _
  case set => exact fun s src a h => k.publishChanges (h.same (by simp)) _ _
  case clear => exact fun s src a h => k.publishChanges (h.same (by simp)) _ _
  case setkey =>
    intro s src a b h
    unfold State.answerSetkey answer
    dsimp only
    (repeat' split) <;> first | exact h | exact k.publishChanges (h.same (by simp)) _ _
  case setscale =>
    intro s src a b h
    unfold State.answerSetscale answer
    dsimp only
    (repeat' split) <;> first | exact h | exact k.publishChanges (h.same (by simp)) _ _
  case setchord =>
    intro s src a b h
    unfold State.answerSetchord State.answerChordWrite answer
    dsimp only
    (repeat' split) <;> first | exact h | exact k.publishChanges (h.same (by simp)) _ _
  case unpin =>
    intro s src a h
    unfold State.answerUnpin unpinAnswer answer
    dsimp only
    (repeat' split) <;> first | exact h | exact k.publishChanges (h.same (by simp)) _ _
  case hush => intro s src h; unfold State.answerHush; split <;> first | exact h | (apply k.cutAll; exact h)
  case resume => intro s src h; unfold State.answerResume; (repeat' split) <;> first | exact h | (apply k.retestAll; exact h)
  case cuenext => intro s h; unfold State.answerCuenext answer navigated; (repeat' split) <;> first | exact h | exact k.enterStep h _
  case cueprev => intro s h; unfold State.answerCueprev answer navigated; (repeat' split) <;> first | exact h | exact k.enterStep h _
  case cuegoto => intro s a h; unfold State.answerCuegoto answer navigated; (repeat' split) <;> first | exact h | exact k.enterStep h _
  case clearfault =>
    intro s h
    unfold State.answerClearfault
    dsimp only
    (repeat' split) <;> first | exact h | exact k.retestAll h
  case line =>
    intro s b e h
    unfold State.answerLine State.lineThresholds answer
    dsimp only
    split
    · exact h
    · split
      · apply k.deriveCondition; apply k.lineChanged; exact h
      · apply k.lineChanged; exact h
  case loadscale =>
    intro s a b c h
    unfold State.answerLoadscale answer
    dsimp only
    (repeat' split) <;> first | exact h | (apply k.publishChanges; exact h)
  case loadshape =>
    intro s a b h
    unfold State.answerLoadshape answer
    dsimp only
    (repeat' split) <;> first | exact h | (apply k.publishChanges; exact h)
  case loadplan =>
    intro s a b c h
    unfold State.answerLoadplan answer
    split
    · refine k.retestAll (Quad.All.mapIdx (p := Q) (fun i v hv => ?_) h)
      split
      · exact k.stage v _ i _ _ hv
      · exact hv
    · exact h
  case bind =>
    intro s a b c h
    unfold State.answerBind answer
    split
    · exact k.retestAll (k.stageOn h _ _ _)
    · exact h
  case restart =>
    intro s h
    have d : s.resetRuntime.Voices Q := ⟨k.atReset _ _, k.atReset _ _, k.atReset _ _, k.atReset _ _⟩
    unfold State.answerRestart State.handOff answer
    apply k.publishChanges
    exact k.deliver d _
  all_goals intros; exact State.Voices.same (by assumption) (by first | rfl | simp)

end Sys2Proof.Machine
end

