-- ==== Sys2Proof/Tests/Slice0.lean ====
section
/-! SUPPORT. Tests of one step or one operation each, their expected values from the manual's tables, and one witness for
the hypotheses of each statement of Sys2Proof/Certificates/Slice0/Obligations.lean. -/

namespace Sys2Proof.Tests

open Sys2Proof.Machine

set_option Elab.async false

/-! ### States and helpers -/

/-- The state after a command. -/
def after (c : Instr) (s : State) : State :=
  match exec c s with
  | .next t => t
  | .fault _ => s
  | .refused _ => s

/-- Locked at 48 kHz with a run of 256 frames counted. -/
def locked : State := { State.reset with rate := { State.reset.rate with state := .locked, lockedClass := some .k48, run := some 256 } }

/-- Acquiring, with an acquisition list of class 48K. -/
def acquiring (l : List Nat) : State :=
  { State.reset with rate := { State.reset.rate with state := .acquiring, acquisition := l, acquisitionClass := some .k48, run := some 256 } }

/-- A voice with a target of 60 against note 57 in a given renderer state. -/
def voiceIn (state : RenderState) (fade : Nat) : Voice :=
  { res := { binding := 0, plan := planAtReset .scalar 2 none, staged := none, target := some 60, goal := some 96, basis := some ⟨.scalar, .none⟩ }
    ren := { RenderRecord.atReset with state := state, fade := fade, hasTarget := true, interval := some 96 } }

/-- Locked, holding note 57, with voice 0 sounding and the other voices without a target. -/
def singing : State :=
  { locked with
    decider := ⟨.held 57, 4⟩
    voices := { State.reset.voices with v0 := voiceIn .sounding 8 } }

/-- A note event due. -/
def withNote (e : NoteEvent) (s : State) : State := { s with due := { s.due with note := some e } }

/-- The chord line in a state of its own. -/
def withLine (f : Line → Line) (s : State) : State := { s with line := f s.line }

/-- A cue list of one step that does nothing, entered with condition `a` at count `n`. -/
def inCue (a : Advance) (n len : Nat) (wrap : Bool) (s : State) : State :=
  { s with tables := { s.tables with cueLength := len, wrap := wrap }, cue := ⟨some 0, n, true, a⟩ }

/-! ### Well-formedness: each check refuses an ill-formed command -/

theorem test_measurement_period_range : (Instr.measurement 65536 (.found 31 8) .first).wellFormed = false := by decide
theorem test_measurement_confidence_range : (Instr.measurement 65536 (.found 3491 16) .first).wellFormed = false := by decide
theorem test_measurement_accepted : (Instr.measurement 65536 (.found 32768 15) .first).wellFormed = true := by decide
theorem test_character_start_high : (Instr.character 1#12 1#12 0#12).wellFormed = false := by decide
theorem test_false_start_low : (Instr.falseStart true false false).wellFormed = false := by decide
theorem test_command_not_fetch : (Instr.commandTransaction .psel [0#8]).wellFormed = false := by decide
theorem test_cueload_seven_pairs :
    (Instr.cueload .panel 0#8 ⟨0#8, 0#8, 0#8, 0#8, ⟨0#8, 0#8, 0#8, 0#8, 0#8⟩, 0#8, 0#8, 0#8, 0#16, List.replicate 8 (0#8, 0#8)⟩).wellFormed =
      false := by decide

/-! ### Records (section 10.7, Table 10.1, R167) -/

theorem test_decode_setkey : decodeRecord .panel 0x10#8 [7#8, 1#8] = .command (.setkey .panel 7#8 1#8) := by decide
theorem test_decode_locksw_stage : decodeRecord .stage 0x15#8 [0x20#8] = .refused .notPermitted := by decide
theorem test_decode_unknown : decodeRecord .panel 0x18#8 [] = .refused .unknown := by decide
theorem test_decode_hush_format : decodeRecord .stage 0x16#8 [0#8] = .refused .format := by decide
theorem test_decode_rate_big_endian :
    decodeRecord .panel 0x42#8 [1#8, 0#8, 0#8, 0xfd#8, 0x70#8, 1#8, 2#8, 0x90#8, 1#8] =
      .command (.remeasure .panel ⟨1#8, 0#8, 64880#24, 66192#24⟩) := by decide
theorem test_table_words_spell_nothing : decodeTableWord 8 0x10 = none := rfl

/-! ### Audio, rate and tracker (Tables 1.9, 1.11, 2.2, 2.3, 2.6) -/

theorem test_frame_sync_acquires : (after (.frameSync 0x12345600#32 256) State.reset).rate.state = .acquiring := by decide +kernel
theorem test_frame_sync_short_frame : (after (.frameSync 0x12345600#32 31) State.reset).asp.dry.getLast? = some 0#24 := by decide +kernel
theorem test_frame_sync_sample : (after (.frameSync 0x12345600#32 32) State.reset).asp.dry.getLast? = some 0x123456#24 := by decide +kernel
theorem test_absence_zeroes_dry : (after .frameAbsence { locked with asp := { locked.asp with absenceRunning := true } }).fault.output = .degraded .rate := by
  decide +kernel
theorem test_acquire_spread_90 :
    (after (.measurement 65530 .noPeriod .last) (acquiring [65540, 65520, 65610])).rate.state = .acquiring := by decide +kernel
theorem test_acquire_locks :
    (after (.measurement 65538 .noPeriod .last) (acquiring [65610, 65530, 65545, 65535])).rate.nrate = 65538 := by decide +kernel
theorem test_code_a3 : pitchCode 65536 3491 0 = some 1056 := by decide +kernel
theorem test_code_e4 : pitchCode 71332 2141 0 = some 1280 := by decide +kernel
theorem test_code_a4_trimmed : pitchCode 65536 1738 2 = some 1440 := by decide +kernel
theorem test_code_kick : pitchCode 65536 13964 0 = some 288 := by decide +kernel
theorem test_level_26000 : levelCode 26000 = 30 := by decide +kernel
theorem test_level_150 : levelCode 150 = 0 := by decide +kernel

/-- The settings of Table 2.6. -/
def phraseSettings : TrackerSettings := ⟨0, 320, 2111, 12, 6, 8, 2, 3⟩

theorem test_phrase_hop3 :
    deciderReport phraseSettings ⟨.onset 33 1, 0⟩ ⟨true, some 1059, some 3480, 11, 40⟩ = (⟨.held 33, 3⟩, some (.noteOn 33)) := by decide
theorem test_phrase_hop4 :
    deciderReport phraseSettings ⟨.held 33, 3⟩ ⟨true, some 1075, some 3380, 11, 40⟩ = (⟨.held 33, 19⟩, none) := by decide
theorem test_phrase_hop5 :
    deciderReport phraseSettings ⟨.held 33, 19⟩ ⟨true, some 1090, some 3290, 11, 40⟩ = (⟨.transition 33 34 1, 19⟩, none) := by decide
theorem test_phrase_hop8 :
    deciderReport phraseSettings ⟨.transition 33 35 1, 22⟩ ⟨true, some 1118, some 3130, 11, 40⟩ = (⟨.held 35, -2⟩, some (.noteChange 33 35)) := by
  decide
theorem test_phrase_hop13 :
    deciderReport phraseSettings ⟨.releasing 35 2, 5⟩ ⟨false, none, none, 0, 5⟩ = (⟨.silent, 0⟩, some (.noteOff 35)) := by decide
theorem test_learn_peak :
    (after .learnComplete { locked with
      due := { Due.nothing with learn := true }, tracker := { locked.tracker with learn := some ⟨.peak, 64, 9, 17, 832⟩ } }).tracker.settings.gate =
      20 := by decide +kernel
theorem test_learn_average :
    (after .learnComplete { locked with
      due := { Due.nothing with learn := true }, tracker := { locked.tracker with learn := some ⟨.average, 64, 9, 17, 832⟩ } }).tracker.settings.gate =
      19 := by decide +kernel

/-! ### Context (Tables 4.3, 4.5, 4.7) -/

theorem test_key_step5 : (Field.write (⟨2, .source (.manual .panel), some .panel, some ⟨4, .cue⟩⟩ : Machine.Field (Fin 12)) 2
    (.manual .stage) false) = (⟨2, .source (.manual .stage), some .stage, none⟩, .applied) := by decide
theorem test_key_step8 : (Field.write (⟨2, .source (.manual .stage), some .stage, some ⟨9, .keytrk⟩⟩ : Machine.Field (Fin 12)) 5
    (.manual .panel) false).2 = .outranked := by decide
theorem test_key_step9 : (Field.release (⟨2, .source (.manual .stage), some .stage, some ⟨9, .keytrk⟩⟩ : Machine.Field (Fin 12)) .desk).1 =
    ⟨9, .source (.auto .keytrk), none, none⟩ := by decide

/-- The context of Table 4.5 after the desk's LOCKSW, with a switch word. -/
def lockedSwitches (w : BitVec 8) : State := { State.reset with ctx := { State.reset.ctx with switches := w, lockMask := 0x2c#8 } }

theorem test_switches_step2 : (after (.switchesClear .stage 0x06#8) (lockedSwitches 0xaf#8)).ports.stage = ⟨0x14#8, .done, [0xad#8, 0x04#8]⟩ := by
  decide +kernel
theorem test_switches_step3 : (after (.switchesPut .panel 0x51#8) (lockedSwitches 0xad#8)).ports.psel = ⟨0x14#8, .done, [0x7d#8, 0x2c#8]⟩ := by
  decide +kernel
theorem test_switches_step4 : cueSwitchWord 0x7d#8 0x2c#8 0x02#8 0x18#8 = 0x6f#8 := by decide
theorem test_switches_step5 : (after (.switchesClear .desk 0x28#8) (lockedSwitches 0x6f#8)).ports.dsel = ⟨0x14#8, .done, [0x47#8, 0#8]⟩ := by
  decide +kernel

/-! ### Chord line (Tables 5.4, 5.5, 5.6) -/

theorem test_match_slash_chord : matchResult shapesAtReset [52, 55, 60] = some ⟨0, 0, some 4⟩ := by decide +kernel
theorem test_match_augmented : matchResult shapesAtReset [52, 56, 60] = some ⟨4, 7, none⟩ := by decide +kernel
theorem test_match_minor_seventh : matchResult shapesAtReset [57, 60, 64, 67] = some ⟨9, 3, none⟩ := by decide +kernel
theorem test_match_fifth_unrecognised : matchResult shapesAtReset [48, 55] = none := by decide +kernel
theorem test_false_start_waits_for_edge :
    (after (.falseStart true true true) (withLine (fun x => { x with wait := .high }) State.reset)).line.wait = .edge := by decide +kernel
theorem test_header_chord :
    (after (.character 0xe26#12 0xe26#12 0xe26#12) State.reset).line.assembler = .frame .chord 3 [] := by decide +kernel
theorem test_lost_clears_chord :
    (after .silenceThreshold { State.reset with
      due := { Due.nothing with silence := true }
      line := { State.reset.line with silence := 1280, frameSeen := true, cond := .stale, settings := { State.reset.line.settings with breakAction := .clear } }
      ctx := { State.reset.ctx with chord := ⟨some ⟨2, 1, none⟩, .source (.auto .chordline), none, none⟩ } }).ctx.chord.value = none := by
  decide +kernel

/-! ### Key tracking (Tables 6.3, 6.4) -/

/-- The accumulators of Table 6.3 in the key of G. -/
def tally : State :=
  { State.reset with
    due := { Due.nothing with decay := true }
    key := { State.reset.key with acc := [120, 310, 900, 0, 420, 40, 560, 380, 0, 700, 30, 340] }
    ctx := { State.reset.ctx with switches := 0xef#8, key := ⟨7, .source (.manual .panel), none, none⟩ } }

theorem test_decay_best : (after .decayEvent tally).key.evaluation.map (fun e => (e.best, e.bestScore, e.currentScore, e.total)) =
    some (2, 3420, 3040, 3800) := by decide +kernel
theorem test_setkey_meets_decay :
    (after (.setkey .panel 9#8 1#8) { tally with key := { tally.key with margin := 0 } }).ctx.key =
      ⟨9, .source (.manual .panel), some .panel, some ⟨2, .keytrk⟩⟩ := by decide +kernel
/-- R60, R61, R107: the UNPIN applies the cue's shadow, and the proposal then finds KEY unpinned. -/
theorem test_unpin_meets_decay :
    let t := after (.unpin .panel 0#8) { tally with
      key := { tally.key with margin := 0 }, ctx := { tally.ctx with key := ⟨7, .source (.manual .panel), some .panel, some ⟨4, .cue⟩⟩ } }
    (t.ports.psel.data.take 1, t.ctx.key) = ([4#8], ⟨2, .source (.auto .keytrk), none, none⟩) := by decide +kernel
/-- Step 2 of Table 9.3 about to be entered by a note start, or by a DWELL expiry, at the hop of a decay event that proposes
key 2 for key 7. -/
def tallyStep (note : Option NoteEvent) (dwell : Bool) : State :=
  { tally with
    key := { tally.key with margin := 0 }
    tables := { tally.tables with cueLength := 2, cues := [cueStepEmpty, ⟨some 9, none, none, 0#8, 0#8, [], .manual⟩] }
    cue := ⟨some 0, 1, true, if dwell then .dwell 1 else .onsets 1⟩
    due := { tally.due with note := note, dwell := dwell } }

theorem test_proposal_waits : (after .decayEvent (tallyStep (some (.noteOn 45)) false)).ctx.key.value = 7 := by decide +kernel
theorem test_old_evaluation_step_proposal :
    let t := after .settleComplete (after .decayEvent (tallyStep (some (.noteOn 45)) false))
    t.key.evaluation.map (·.current) = some 7 ∧ t.cue.cursor = some 1 ∧ t.ctx.key.value = 2 := by decide +kernel
theorem test_step_evaluation :
    (after .decayEvent (after .settleComplete (tallyStep (some (.noteOn 45)) false))).key.evaluation.map (·.current) = some 9 := by
  decide +kernel
theorem test_dwell_between : (after .dwellExpiry (after .decayEvent (tallyStep none true))).ctx.key.value = 2 := by decide +kernel
theorem test_decay_margin : (after .decayEvent tally).key.evaluation.map (·.outcome) = some .margin := by decide +kernel

/-! ### Resolution (Table 7.6) -/

/-- A scale slot of major with a rule. -/
def major (r : ScaleRule) : ScaleSlot := ⟨0xab5#12, r⟩

theorem test_row2 : scalarNote (major .parallel) 2 30 (-3) = 25 := by decide
theorem test_row4 : scalarNote (major .parallel) 2 29 2 = 32 := by decide
theorem test_row5 : scalarNote (major .lower) 2 29 2 = 31 := by decide
theorem test_row6 : scalarNote (major .upper) 2 29 2 = 33 := by decide
theorem test_row7 : scalarNote (major .parallel) 2 35 3 = 40 := by decide
theorem test_row9 : chordalNote shapesAtReset ⟨2, 0, none⟩ 30 2 = 38 := by decide
theorem test_row10 : chordalNote shapesAtReset ⟨2, 0, none⟩ 30 (-1) = 26 := by decide
theorem test_row12 : rangeFold 12 71 (chordalNote shapesAtReset ⟨2, 0, some 9⟩ 30 0) = (21, .octave) := by decide
theorem test_row15 : rangeFold 12 71 74 = (62, .octave) := by decide
theorem test_row17 : rangeFold 40 44 33 = (44, .edge) := by decide

/-! ### Rendering (Tables 8.2, 8.3, 8.6) -/

theorem test_glide_up : ({ RenderRecord.atReset with interval := some 96, glide := some ⟨96, 128, 3, 3⟩ }).glideStep.interval = some 107 := by decide
theorem test_glide_down : ({ RenderRecord.atReset with interval := some 128, glide := some ⟨128, 96, 3, 3⟩ }).glideStep.interval = some 117 := by decide
theorem test_glide_restart : ({ RenderRecord.atReset with interval := some 117, glide := some ⟨117, 160, 3, 3⟩ }).glideStep.interval = some 132 := by
  decide
theorem test_ratio_96 : ratioCode 96 = 19484 := by decide +kernel
theorem test_ratio_minus_160 : ratioCode (-160) = 12274 := by decide +kernel
theorem test_ratio_91 : ratioCode 91 = 19309 := by decide +kernel
theorem test_ratio_octaves : (ratioCode (-768), ratioCode (-384), ratioCode 0, ratioCode 384, ratioCode 768) = (4096, 8192, 16384, 32768, 65536) := by
  decide +kernel
theorem test_fade_falling_from_4 : ({ RenderRecord.atReset with state := .falling, fade := 4 }).fadeStep.fade = 3 := by decide
theorem test_fade_rising_from_7 : ({ RenderRecord.atReset with state := .rising, fade := 7 }).fadeStep.state = .sounding := by decide

/-! ### Cue list (Table 9.4) -/

/-- The list of Table 9.3, steps 0 and 1, with the KEY pinned by STAGE as after event 2. -/
def cueRun : State :=
  { State.reset with
    tables := { State.reset.tables with
      cueLength := 4
      cues := [⟨some 7, some 0, some (some ⟨7, 0, none⟩), 3#8, 0x10#8, [], .onsets 2⟩, ⟨none, none, some (some ⟨0, 0, none⟩), 0#8, 0#8, [(2, 5)], .onsets 1⟩,
        ⟨some 9, some 1, some none, 0x10#8, 0#8, [], .dwell 375⟩, ⟨none, none, some (some ⟨9, 1, none⟩), 0#8, 2#8, [], .manual⟩] }
    cue := ⟨some 0, 2, true, .onsets 2⟩
    decider := ⟨.held 47, 0⟩
    due := { Due.nothing with note := some (.noteChange 45 47) } }

theorem test_cuenext_enters_step_0 : (after (.cuenext .panel) { cueRun with cue := .atReset, due := .nothing }).cue = ⟨some 0, 0, true, .onsets 2⟩ := by
  decide +kernel
theorem test_onset_advances : (after .settleComplete cueRun).cue = ⟨some 1, 1, true, .onsets 1⟩ := by decide +kernel
theorem test_written_back_chord_is_listed :
    let c := State.reset.ctx
    (c.noteChanges { c with chord := ⟨some ⟨2, 1, none⟩, .source (.auto .chordline), none, none⟩ } c).chord = true := by decide +kernel
theorem test_onset_adopts_binding : (after .settleComplete cueRun).voices.v2.res.binding = 5 := by decide +kernel
theorem test_cuenext_at_end : (after (.cuenext .panel) { cueRun with cue := ⟨some 3, 0, true, .manual⟩, due := .nothing }).ports.psel = ⟨0x20#8, .ended, []⟩ := by
  decide +kernel

/-! ### Ports (Table 10.4) -/

/-- The setup port held by PSEL. -/
def pselHeld : State := { State.reset with ports := { State.reset.ports with holder := some .psel } }

theorem test_setkey_reply : (after (.commandTransaction .psel [0x10#8, 2#8, 7#8, 1#8]) pselHeld).ports.psel = ⟨0x10#8, .done, [7#8, 1#8, 1#8]⟩ := by
  decide +kernel
theorem test_fetch_bytes :
    (after (.fetch .psel 7) { pselHeld with ports := { pselHeld.ports with psel := ⟨0x10#8, .done, [7#8, 1#8, 1#8]⟩ } }).ports.spdo =
      [0#8, 5#8, 0x10#8, 0#8, 7#8, 1#8, 1#8, 0#8] := by decide +kernel
theorem test_refused_busy :
    (after (.refusedTransaction .dsel) { pselHeld with ports := { pselHeld.ports with refused := some .dsel } }).ports.dsel = ⟨0#8, .busy, []⟩ := by
  decide +kernel
theorem test_stage_address : (State.powerOn 1#2).ports.address = 0x2d#7 := by decide +kernel
theorem test_stage_17_bytes :
    let p := (after (.stageWrite ⟨0x14#8 :: List.replicate 16 0#8, .stop⟩) { State.reset with ports := { State.reset.ports with transfer := .write } }).ports
    p.stage = ⟨0x14#8, .format, []⟩ ∧ p.acks = List.replicate 16 true ++ [false] := by decide +kernel
theorem test_stage_hush :
    (after (.stageWrite ⟨[0x16#8, 0#8], .repeatedStart⟩) { State.reset with ports := { State.reset.ports with transfer := .write } }).ports.stage =
      ⟨0x16#8, .done, [0#8, 2#8]⟩ := by decide +kernel

theorem test_time_out_flag :
    (after .timeOut { State.reset with ports := { State.reset.ports with transfer := .write, timer := some 20 } }).flag .twTimeout = true := by
  decide +kernel
theorem test_repeated_start_takes_new_time_out :
    (after (.stageWrite ⟨[0x16#8, 0#8], .repeatedStart⟩)
      { State.reset with ports := { State.reset.ports with transfer := .write, timer := some 20, timeout := 10 } }).ports.timer = some 10 := by
  decide +kernel

/-! ### Faults (Table 11.4) -/

theorem test_howl_first_report : (State.reset.fault.howlReport true 15 60 true 4).1.dev0 = some 4 := by decide
theorem test_rate_loss_in_recovering :
    (after .frameAbsence { locked with
      asp := { locked.asp with absenceRunning := true }, fault := { locked.fault with output := .recovering, recovery := 30 } }).fault.output = .bypass := by
  decide +kernel
theorem test_clearfault_in_bypass :
    (after (.clearfault .desk) { State.reset with fault := { State.reset.fault with output := .bypass } }).fault.output = .run := by decide +kernel
theorem test_ackflags_all :
    (after (.ackflags .panel 0xffff#16) { State.reset with fault := { State.reset.fault with flags := 0x1c00#16 } }).atn = false := by decide +kernel

/-! ### Witnesses: the hypotheses of each statement can be met, each clause's at the ends of its range -/

theorem exec_switchesPut (m : Manual) (b : Byte) (s : State) : exec (.switchesPut m b) s = .next (after (.switchesPut m b) s) := rfl
theorem exec_cuestop (m : Manual) (s : State) : exec (.cuestop m) s = .next (after (.cuestop m) s) := rfl

theorem witness_StepRunsTheFrontCommand : State.reset.pending = [] := rfl

theorem witness_EveryCommandCompletes :
    State.reset.Quiet ∧ Instr.isCompletion .frameAbsence = false ∧ Instr.isCompletion (.powerOn 1#2) = false ∧ tally.due.decay = true ∧
      Instr.meetsDecay .frameAbsence = false ∧ ({ Due.nothing with proposal := some 2 } : Due).proposal ≠ none :=
  ⟨rfl, rfl, rfl, rfl, rfl, by decide⟩

/-- The reset state with hush held by DESK. -/
def hushed : State := { State.reset with ctx := { State.reset.ctx with hush := some .desk } }

/-- The reset state with voice 0's renderer record and the fade-step count set. -/
def grains (r : RenderRecord) (n : Nat) : State :=
  { State.reset with
    voices := { State.reset.voices with v0 := { State.reset.voices.v0 with ren := r } }
    renderer := { State.reset.renderer with fadeCount := n } }

theorem witness_FrameSyncMovesSamples :
    let gain := fun (s : State) => (s.voices.get 0).ren.gain (min 256 (s.renderer.ramp + 1))
    let ending := grains { RenderRecord.atReset with fadeOld := 1 } 0
    State.reset.Quiet ∧ State.reset.rate.state = .unlocked ∧ gain State.reset = 0 ∧ locked.Quiet ∧ locked.rate.state = .locked ∧ hushed.Quiet ∧
      hushed.ctx.hush ≠ none ∧ singing.Quiet ∧ singing.fault.output ≠ .bypass ∧ singing.ctx.hush = none ∧ gain singing ≠ 0 ∧
      (singing.voices.get 0).ren.state ≠ .idle ∧ ending.Quiet ∧ gain ending ≠ 0 ∧ (ending.voices.get 0).ren.state = .idle := by
  unfold State.Quiet; decide +kernel

theorem witness_DryPathDelays128Frames :
    State.reset.asp.dry.length = 128 ∧ (List.replicate 127 ((0x12345678#32, 256) : SlotWord × Nat)).length = 127 := by decide +kernel

theorem witness_FrameSyncMovesGrains :
    (grains { RenderRecord.atReset with timer := 2031 } 254).Quiet ∧ 2031 + 16 < State.reset.renderer.grainLength ∧
      (grains RenderRecord.atReset 254).rate.state ≠ .locked ∧ 254 + 1 < 256 ∧
      (grains { RenderRecord.atReset with timer := 2032, boundaryDue := true, pending := some 96 } 255).Quiet ∧
      ¬(2032 + 16 < State.reset.renderer.grainLength) ∧ 256 ≤ 255 + 1 ∧ locked.Quiet ∧ locked.rate.state = .locked := by
  unfold State.Quiet; decide +kernel

/-- A state whose absence timer runs. -/
def framed (s : State) : State := { s with asp := { s.asp with absenceRunning := true } }

theorem witness_FrameAbsenceClearsTheLine :
    State.reset.Quiet ∧ State.reset.asp.absenceRunning = false ∧ (framed (acquiring [65536])).Quiet ∧
      (framed (acquiring [65536])).asp.absenceRunning = true ∧ (framed (acquiring [65536])).rate.state ≠ .locked ∧ (framed locked).Quiet ∧
      (framed locked).asp.absenceRunning = true ∧ (framed locked).rate.state = .locked := by
  unfold State.Quiet; decide +kernel

/-- Locked with a remeasure list and an out count of 2. -/
def remeasuring (l : List Nat) : State := { locked with rate := { locked.rate with remeasure := some l, outCount := 2 } }

/-- Whether a list holds 4 entries within 64 of each other. -/
abbrev agree (l : List Nat) : Prop := l.length = 4 ∧ ∀ x ∈ l, ∀ y ∈ l, x ≤ y + 64

theorem witness_LockedJudgesMeasurements :
    locked.Quiet ∧ locked.rate.state = .locked ∧ locked.rate.run = some 256 ∧ locked.rate.remeasure = none ∧
      locked.rate.classOf 64880 = some .k48 ∧ locked.rate.classOf 66192 = some .k48 ∧ locked.rate.lockedClass = some .k48 ∧
      locked.rate.classOf 64879 = none ∧ locked.rate.classOf 70620 ≠ locked.rate.lockedClass ∧ locked.rate.outCount < 3 ∧
      (remeasuring [65536, 65536, 65600]).Quiet ∧ (remeasuring [65536, 65536, 65600]).rate.run = some 256 ∧ locked.rate.inLock 65536 = true ∧
      agree [65536, 65536, 65600, 65536] ∧ ¬agree [65536, 65536, 65600, 65535] ∧ ¬agree [65536, 65536] ∧
      (remeasuring []).rate.inLock 66193 = false ∧ (remeasuring []).rate.outCount < 3 := by
  unfold State.Quiet; decide +kernel

theorem witness_AcquiringTakesMeasurements :
    let s := acquiring [65536, 65536, 65600]
    let d : State := { s with rate := { s.rate with causeRate := true }, fault := { s.fault with output := .degraded .rate } }
    s.Quiet ∧ s.rate.state = .acquiring ∧ s.rate.run = some 256 ∧ s.rate.acquisition.length ≤ 4 ∧ s.rate.classOf 66193 = none ∧
      s.rate.classOf 65536 ≠ none ∧ s.rate.acquisitionClass = s.rate.classOf 65536 ∧ agree [65536, 65536, 65600, 65536] ∧
      s.rate.classOf 65601 ≠ none ∧ ¬agree [65536, 65536, 65600, 65601] ∧ s.rate.classOf 70620 ≠ none ∧ ¬agree [70620] ∧ s.rate.mode = .auto ∧
      ({ s.rate with mode := .manual }).mode = .manual ∧ s.fault.output = .run ∧ d.Quiet ∧ d.fault.output = .degraded .rate ∧
      d.rate.causeRate = true := by
  unfold State.Quiet; decide +kernel

theorem witness_RateLossEntersLost :
    let s (o : OutputState) : State := framed { locked with rate := { locked.rate with outCount := 3 }, fault := { locked.fault with output := o } }
    (∀ o ∈ [OutputState.run, .recovering, .degraded .howl, .bypass], (s o).Quiet ∧ (s o).rate.state = .locked ∧ (s o).fault.output = o) ∧
      (s .run).asp.absenceRunning = true ∧ (s .run).rate.run = some 256 ∧ (s .run).rate.inLock 64879 = false ∧ (s .run).rate.outCount = 3 := by
  unfold State.Quiet; decide +kernel

theorem witness_CodesAreTheRealFormulas :
    (8388607 : ℕ) ≠ 0 ∧ (8388607 : ℕ) ≤ 8388607 ∧ (-20 * Real.logb 10 (((8388607 : ℕ) : ℝ) / 8388607) : ℝ) < 93 ∧
      (32768 ≤ 131071 ∧ 32 ≤ 32768) ∧ (-768 : Int) ≤ 768 := by norm_num

theorem witness_VoicedReportPassesFourTests :
    let r : Report := ⟨true, some 1056, some 3491, 11, 40⟩
    let q : Report := ⟨true, some 1056, some 3490, 12, 50⟩
    (32 ≤ 32768 ∧ 1 ≤ 15) ∧ r.voiced = q.voiced ∧ (r.voiced = true → r.code = q.code) := by decide

theorem witness_DeciderStartsANote :
    (⟨.silent, 0⟩ : Decider).state = .silent ∧ 1 < phraseSettings.settle ∧ ({ phraseSettings with settle := 1 }).settle ≤ 1 ∧
      (⟨.onset 33 1, 0⟩ : Decider).state = .onset 33 1 ∧ min 95 ((1059 + 16) / 32) = 33 ∧ phraseSettings.settle ≤ 1 + 1 ∧
      1 + 1 < ({ phraseSettings with settle := 8 }).settle ∧ min 95 ((1072 + 16) / 32) ≠ 33 := by decide

/-- Whether a code lies inside the band of a note under the settings of Table 2.6. -/
abbrev inBand (c N : Nat) : Prop := (32 * N : Int) - 16 - phraseSettings.hysteresis ≤ c ∧ (c : Int) ≤ 32 * N + 15 + phraseSettings.hysteresis

theorem witness_DeciderKeepsANote :
    (⟨.held 33, 3⟩ : Decider).state = .held 33 ∧ inBand 1032 33 ∧ inBand 1079 33 ∧ ¬inBand 1031 33 ∧ ¬inBand 1080 33 ∧ 1080 ≤ 3055 ∧
      1 < phraseSettings.settle ∧ ({ phraseSettings with settle := 1 }).settle ≤ 1 ∧ 1 < phraseSettings.release ∧
      ({ phraseSettings with release := 1 }).release ≤ 1 ∧ (⟨.transition 33 34 1, 3⟩ : Decider).state = .transition 33 34 1 ∧
      min 95 ((1080 + 16) / 32) = 34 ∧ phraseSettings.settle ≤ 1 + 1 ∧ 1 + 1 < ({ phraseSettings with settle := 3 }).settle ∧
      min 95 ((1121 + 16) / 32) ≠ 34 ∧ (⟨.releasing 33 2, 3⟩ : Decider).state = .releasing 33 2 ∧ phraseSettings.release ≤ 2 + 1 ∧
      2 + 1 < ({ phraseSettings with release := 4 }).release := by decide

theorem witness_HopReachesEveryBlock :
    let s := inCue (.dwell 1) 0 1 false singing
    s.Quiet ∧ s.rate.run = some 256 ∧ (State.measure { s with rate := { s.rate with run := some (256 - 256) } } 65536).2 = true ∧
      s.cue.entered = .dwell 1 ∧ s.cue.running = true ∧ s.cue.cursor ≠ none ∧ singing.cue.running = false ∧
      (makeReport s.tracker.settings 65536 40 (.found 1745 11)).voiced = true ∧ (makeReport s.tracker.settings 65536 0 .noPeriod).voiced = false := by
  unfold State.Quiet; decide +kernel

/-- `singing` after full-scale input. -/
def howling : State := { singing with tracker := { singing.tracker with history := List.replicate 4096 0x7fffff#24 } }

theorem witness_HopMovesFaultsAndVoices :
    let u := State.measure { howling with rate := { howling.rate with run := some (256 - 256) } } 65536
    let t := after (.measurement 65536 (.found 873 15) .first) howling
    let level := levelCode (peakOf ((howling.tracker.history.drop (howling.tracker.history.length - 257)).take 256))
    howling.Quiet ∧ howling.rate.run = some 256 ∧ u.2 = true ∧ u.1.fault.howlEnable = true ∧ u.1.fault.causeHowl = false ∧
      (t.decider.state = .held 57 ∧ (makeReport howling.tracker.settings t.rate.nrate level (.found 873 15)).confidence = 15 ∧ 58 ≤ level ∧
        (howling.voices.get 0).ren.state = .sounding ∧ u.1.fault.dev0 = none) ∧
      (makeReport howling.tracker.settings t.rate.nrate level (.found 873 14)).confidence ≠ 15 ∧
      ({ u.1.fault with howlEnable := false }).howlEnable = false := by
  unfold State.Quiet; decide +kernel

theorem witness_SettingCommandsReplaceTheirSettings :
    State.reset.Quiet ∧ State.reset.rate.state ≠ .locked ∧ locked.Quiet ∧ locked.rate.state = .locked ∧
      (-16 ≤ (0xf0#8).toInt ∧ (0x10#8).toInt ≤ 16 ∧ ¬(0x11#8).toInt ≤ 16 ∧ (640#16).toNat + 384 ≤ (1024#16).toNat ∧ ¬(641#16).toNat + 384 ≤ (1024#16).toNat) ∧
      (32768 ≤ (32768#24).toNat ∧ (32768#24).toNat < (32769#24).toNat ∧ (131071#24).toNat ≤ 131071 ∧ ¬(131072#24).toNat ≤ 131071) ∧
      (16 ≤ (16#16).toNat ∧ (4096#16).toNat ≤ 4096 ∧ (4096#16).toNat % 16 = 0 ∧ (63#8).toNat ≤ 63 ∧ ¬(64#8).toNat ≤ 63) ∧
      (64 ≤ (64#16).toNat ∧ (2048#16).toNat ≤ 2048 ∧ (2048#16).toNat % 64 = 0 ∧ ¬(65#16).toNat % 64 = 0) ∧
      (1 ≤ (64#8).toNat ∧ (64#8).toNat ≤ 64 ∧ 64 < (65#8).toNat ∧ (0#8).toNat = 0) := by
  unfold State.Quiet; decide +kernel

/-- Locked with a learn in progress. -/
def learning (largest : Nat) (due : Bool) : State :=
  { locked with due := { Due.nothing with learn := due }, tracker := { locked.tracker with learn := some ⟨.peak, 64, 9, largest, 832⟩ } }

theorem witness_LearnMeasuresTheGate :
    State.reset.Quiet ∧ State.reset.rate.state ≠ .locked ∧ locked.Quiet ∧ locked.rate.state = .locked ∧ locked.tracker.learn = none ∧
      ((2#8 : Byte) ≠ 0#8 ∧ (2#8 : Byte) ≠ 1#8) ∧ (learning 21 false).Quiet ∧ (learning 21 false).tracker.learn ≠ none ∧
      (learning 21 true).tracker.learn = some ⟨.peak, 64, 9, 21, 832⟩ ∧ (learning 21 true).due.learn = true ∧ 21 - 9 ≤ 12 ∧ 12 < 22 - 9 ∧
      (learning 22 false).due.learn = false ∧ { State.reset with due := { Due.nothing with learn := true } }.due.learn = true ∧
      State.reset.tracker.learn = none := by
  unfold State.Quiet; decide +kernel

theorem witness_LoadsReplaceScaleAndShapeSlots :
    State.reset.Quiet ∧ ((7#8).toNat ≤ 7 ∧ (2#8).toNat ≤ 2) ∧ ¬(8#8).toNat ≤ 7 ∧ ¬(3#8).toNat ≤ 2 ∧ (0xfff#16).toNat < 4096 ∧
      (0xfff#16).getLsbD 0 = true ∧ ¬(0x1001#16).toNat < 4096 ∧ ¬(2#16).getLsbD 0 = true ∧ State.reset.ctx.scale.value.val ≠ (7#8).toNat ∧
      State.reset.ctx.scale.value.val = (0#8).toNat ∧ 15 < (16#8).toNat ∧ (15#8).toNat ≤ 15 ∧ (3#16).toNat < 4096 ∧ (3#16).getLsbD 0 = true ∧
      (3#16 : BitVec 16) ≠ 1#16 := by
  unfold State.Quiet; decide +kernel

theorem witness_LoadplanStoresAndStages :
    State.reset.Quiet ∧ (15#8).toNat ≤ 15 ∧ ¬(16#8).toNat ≤ 15 ∧ (4#8).toNat ≤ 4 ∧ ¬(5#8).toNat ≤ 4 ∧ (95#8).toNat ≤ 95 ∧ ¬(96#8).toNat ≤ 95 ∧
      (-7 ≤ (0xf9#8).toInt ∧ ¬(-7 ≤ (0xf8#8).toInt)) ∧ ((0xe8#8).toInt = -24 ∧ (0xfc#8).toInt = -4) ∧ readMark .loadplan 1#8 = true ∧
      readMark .loadplan 0#8 = false ∧ (State.reset.voices.get 0).res.binding.val = (0#8).toNat ∧ (State.reset.voices.get 0).ren.state = .idle ∧
      State.reset.decider.state.note = none ∧ singing.Quiet ∧ (singing.voices.get 0).ren.state ≠ .idle ∧
      (singing.voices.get 0).res.binding.val = (0#8).toNat ∧ (singing.voices.get 0).res.binding.val ≠ (15#8).toNat ∧
      switchSet singing.copy.switches (.enable 0) = true ∧ singing.decider.state.note ≠ none := by
  unfold State.Quiet; decide +kernel

theorem witness_BindStagesALibrarySlot :
    State.reset.Quiet ∧ ((3#8).toNat ≤ 3 ∧ (15#8).toNat ≤ 15 ∧ (1#8).toNat ≤ 1) ∧ ¬(4#8).toNat ≤ 3 ∧ ¬(16#8).toNat ≤ 15 ∧ ¬(2#8).toNat ≤ 1 ∧
      (State.reset.voices.get 3).ren.state = .idle ∧ State.reset.decider.state.note = none ∧ singing.Quiet ∧
      ¬((0#8 : Byte) = 1#8 ∨ (singing.voices.get 0).ren.state = .idle) ∧ switchSet singing.copy.switches (.enable 3) = true ∧
      singing.decider.state.note ≠ none := by
  unfold State.Quiet; decide +kernel

theorem witness_ReadsChangeOnlyTheReplySlot :
    State.reset.Quiet ∧ (7#8).toNat ≤ 7 ∧ 7 < (8#8).toNat ∧ (15#8).toNat ≤ 15 ∧ 15 < (16#8).toNat ∧ 2 < (3#8).toNat ∧ (3#8).toNat ≤ 3 ∧
      3 < (4#8).toNat ∧ (63#8).toNat ≤ 63 ∧ 63 < (64#8).toNat := by
  unfold State.Quiet; decide +kernel

/-- Every field of the context pinned by one source. -/
def pinnedBy (m : Manual) : State :=
  { State.reset with ctx := { State.reset.ctx with
      key := ⟨2, .source (.manual m), some m, some ⟨9, .keytrk⟩⟩
      scale := ⟨1, .source (.manual m), some m, none⟩
      chord := ⟨none, .source (.manual m), some m, some ⟨some ⟨9, 1, none⟩, .cue⟩⟩ } }

theorem witness_SetkeyAndSetscaleAreArbitrated :
    State.reset.Quiet ∧ State.reset.ctx.key.pin = none ∧ ((11#8).toNat ≤ 11 ∧ (1#8).toNat ≤ 1) ∧ ¬(12#8).toNat ≤ 11 ∧ ¬(2#8).toNat ≤ 1 ∧
      (pinnedBy .desk).Quiet ∧ (pinnedBy .desk).ctx.key.pin = some .desk ∧ ¬rank .desk ≤ rank .stage ∧ (pinnedBy .panel).ctx.scale.pin = some .panel ∧
      rank .panel ≤ rank .stage ∧ State.reset.ctx.key.value.val = (0#8).toNat ∧
      (State.reset.tables.scales.getD (6#8).toNat ⟨0#12, .parallel⟩).members ≠ 0#12 ∧
      ¬(State.reset.tables.scales.getD (7#8).toNat ⟨0#12, .parallel⟩).members ≠ 0#12 := by
  unfold State.Quiet; decide +kernel

theorem witness_SetchordWritesTheChord :
    State.reset.Quiet ∧ State.reset.ctx.chord.pin = none ∧
      ((1#8).toNat ≤ 1 ∧ (11#8).toNat ≤ 11 ∧ (15#8).toNat ≤ 15 ∧ ¬(12#8).toNat ≤ 11 ∧ ¬(16#8).toNat ≤ 15 ∧ ¬(2#8).toNat ≤ 1) ∧
      readMark .setchord 1#8 = true ∧ readMark .setchord 0#8 = false ∧ State.reset.tables.shapes.getD (9#8).toNat 0#12 ≠ 0#12 ∧
      State.reset.tables.shapes.getD (10#8).toNat 0#12 = 0#12 ∧ (pinnedBy .desk).Quiet ∧ (pinnedBy .desk).ctx.chord.pin = some .desk ∧
      ¬rank .desk ≤ rank .stage := by
  unfold State.Quiet; decide +kernel

theorem witness_AutomaticWritesMeetThePin :
    (pinnedBy .panel).ctx.key.pin = some .panel ∧ (pinnedBy .stage).ctx.scale.pin = some .stage ∧ (pinnedBy .desk).ctx.chord.pin = some .desk ∧
      2 < (3#8).toNat ∧ State.reset.Quiet ∧ State.reset.ctx.key.pin = none ∧ State.reset.ctx.scale.pin = none ∧ State.reset.ctx.chord.pin = none ∧
      (pinnedBy .stage).Quiet ∧ (pinnedBy .stage).ctx.key.pin = some .stage ∧ (pinnedBy .stage).ctx.chord.pin = some .stage ∧
      rank .panel < rank .stage ∧ rank .stage ≤ rank .stage := by
  unfold State.Quiet; decide +kernel

theorem witness_SwitchesChangeFreeSwitches :
    let s := lockedSwitches 0xaf#8
    s.Quiet ∧ (Manual.panel ≠ .desk ∧ s.ctx.lockMask.getLsbD 2 = true) ∧ ¬(Manual.panel ≠ .desk ∧ s.ctx.lockMask.getLsbD 7 = true) ∧
      (s.ctx.switches.getLsbD 5 = true ∧ (0x07#8).getLsbD 5 = false) ∧ 2 < (3#8).toNat := by
  unfold State.Quiet; decide +kernel

theorem witness_LockMaskGuardsSwitches :
    let s := lockedSwitches 0xaf#8
    s.Quiet ∧ Instr.mayChangeLocked (.switchesPut .panel 0#8) = false ∧
      exec (.switchesPut .panel 0#8) s = .next (after (.switchesPut .panel 0#8) s) ∧ s.ctx.lockMask.getLsbD 2 = true := ⟨rfl, rfl, exec_switchesPut _ _ _, by decide⟩

theorem witness_HushSilencesAndResumeReleases :
    let s (m : Manual) : State := { singing with ctx := { singing.ctx with hush := some m } }
    singing.Quiet ∧ singing.ctx.hush = none ∧ (s .desk).Quiet ∧ (s .desk).ctx.hush = some .desk ∧ rank .stage < rank .desk ∧ (s .panel).Quiet ∧
      (s .panel).ctx.hush = some .panel ∧ rank .panel ≤ rank .panel ∧ ((s .panel).voices.get 1).ren.state = .idle ∧
      ((s .panel).voices.get 0).ren.state = .sounding ∧ (voiceIn .falling 8).ren.state = .falling ∧ (voiceIn .rising 0).ren.state = .rising := by
  unfold State.Quiet; decide +kernel

theorem witness_NoteStartIsOneOperation :
    (∀ n, State.reset.due.note ≠ some (.noteOn n)) ∧ (∀ old n, State.reset.due.note ≠ some (.noteChange old n)) ∧
      (withNote (.noteChange 45 47) State.reset).due.note = some (.noteChange 45 47) ∧ (withNote (.noteChange 45 47) State.reset).due.proposal = none ∧
      (∀ k, State.reset.cue.entered ≠ .onsets k) ∧
      ({ (inCue (.onsets 2) 1 1 false State.reset).cue with running := false }).running = false ∧ State.reset.cue.cursor = none ∧
      (let u := withNote (.noteOn 48) (inCue (.onsets 2) 1 1 false State.reset)
       u.due.note = some (.noteOn 48) ∧ u.cue.entered = .onsets 2 ∧ u.cue.running = true ∧ u.cue.cursor = some 0 ∧ u.cue.counter < 2) ∧
      (let u := withNote (.noteOn 48) (inCue (.onsets 2) 2 2 false State.reset)
       2 ≤ u.cue.counter ∧ (1 : Fin 64).val = (0 : Fin 64).val + 1 ∧ (1 : Fin 64).val < u.tables.cueLength) ∧
      (let u := withNote (.noteOn 48) (inCue (.onsets 2) 2 1 true State.reset)
       2 ≤ u.cue.counter ∧ u.tables.cueLength ≤ (0 : Fin 64).val + 1 ∧ u.tables.wrap = true) ∧
      (let u := withNote (.noteOn 48) (inCue (.onsets 2) 2 1 false State.reset)
       2 ≤ u.cue.counter ∧ u.tables.cueLength ≤ (0 : Fin 64).val + 1 ∧ u.tables.wrap = false) := by
  refine ⟨fun n h => ?_, fun o n h => ?_, rfl, rfl, fun k h => ?_, rfl, rfl, by decide +kernel, by decide +kernel, by decide +kernel, by decide +kernel⟩ <;>
    cases h

theorem witness_NoteOffIsOneOperation :
    (withNote (.noteOff 45) State.reset).due.note = some (.noteOff 45) ∧ ∀ n, State.reset.due.note ≠ some (.noteOff n) := ⟨rfl, fun n h => by cases h⟩

/-- The chord line with an assembler, a FIFO and a gap mark. -/
def receiving (a : Assembler) (l : List LineChar) (g : Bool) : State :=
  withLine (fun x => { x with assembler := a, fifo := l, gapPending := g }) State.reset

/-- The chord line disabled. -/
def lineOff : State := withLine (fun x => { x with settings := { x.settings with enable := false } }) State.reset

theorem witness_CharactersReachTheAssembler :
    let c : LineChar := ⟨0#8, false, false, false, false⟩
    State.reset.Quiet ∧ lineOff.Quiet ∧ lineOff.line.settings.enable = false ∧ State.reset.line.settings.enable = true ∧ (1#12).getLsbD 0 = true ∧
      ((true && true) || (true && false) || (true && false)) = true ∧ (0xe26#12).getLsbD 0 = false ∧ (receiving .matching [c, c] false).Quiet ∧
      (receiving .matching [c, c] false).line.fifo.length = 2 ∧ (receiving .matching [c] true).Quiet ∧
      (receiving .matching [c] true).line.fifo.length < 2 ∧ (receiving (.frame .chord 3 [1#8, 2#8]) [] true).Quiet ∧
      (receiving (.frame .chord 3 [1#8, 2#8]) [] true).line.fifo.length < 2 := by
  unfold State.Quiet; decide +kernel

theorem witness_ValidFramesAct :
    let shape := fun (k : Nat) => State.reset.tables.shapes.getD k 0#12
    let scale := fun (k : Nat) => (State.reset.tables.scales.getD k ⟨0#12, .parallel⟩).members
    State.reset.line.settings.enable = true ∧ shape 9 ≠ 0#12 ∧ shape 10 = 0#12 ∧ scale 6 ≠ 0#12 ∧ scale 7 = 0#12 ∧
      ((11#8).toNat ≤ 11 ∧ ¬(12#8).toNat ≤ 11 ∧ (2#8).toNat ≤ 2 ∧ ¬(3#8).toNat ≤ 2 ∧ (127#8).toNat ≤ 127 ∧ ¬(128#8).toNat ≤ 127) ∧
      (List.replicate 8 (2#8 : Byte)).length ≤ 8 ∧ ¬(List.replicate 9 (2#8 : Byte)).length ≤ 8 ∧ ¬2 ≤ ([2#8] : List Byte).length ∧
      ([0#8] : List Byte) ≠ [] ∧ switchSet State.reset.ctx.switches .chord = true ∧ switchSet (0x8f#8) .chord = false ∧
      State.reset.line.cond ≠ .active ∧ (withLine (fun x => { x with frameSeen := true, cond := .active }) State.reset).line.cond = .active ∧ State.reset.ctx.lineCond = State.reset.line.cond ∧ State.reset.queue.length < 4 ∧ 4 ≤ ({ State.reset with queue := List.replicate 4 ⟨none, .phrase⟩ } : State).queue.length ∧
      ([127#8, 0#8] : List Byte).length ≤ 7 ∧ (∀ x ∈ ([127#8, 0#8] : List Byte), x.toNat ≤ 127) := by decide +kernel

/-- A line that has just gone stale. -/
def goneStale : State :=
  withLine (fun x => { x with frameSeen := true, silence := 384, cond := .active }) { State.reset with due := { Due.nothing with silence := true } }

theorem witness_BreaksAndSilenceSetTheLineCondition :
    lineOff.Quiet ∧ lineOff.line.settings.enable = false ∧ State.reset.Quiet ∧ State.reset.line.settings.enable = true ∧
      State.reset.due.silence = false ∧ goneStale.PinsOwned ∧ goneStale.due.silence = true ∧ goneStale.line.broken = false ∧
      ¬8 * goneStale.line.settings.lost ≤ goneStale.line.silence ∧ 8 * goneStale.line.settings.stale ≤ goneStale.line.silence ∧
      LineCondition.stale ≠ goneStale.line.cond ∧ (pinnedBy .desk).PinsOwned := by
  unfold State.Quiet State.PinsOwned Field.PinOwned; decide +kernel

theorem witness_MatcherPicksTheBestPair :
    let P : Finset Nat := ([52, 55, 60].map (· % 12)).toFinset
    let C := fun (r k : Nat) => ((Finset.range 12).filter fun x => (shapesAtReset.getD k 0#12).getLsbD x = true).image fun x => (x + r) % 12
    let score : Nat → Nat → Int := fun r k => 4 * ((P ∩ C r k).card : Int) - 3 * ((P \ C r k).card : Int) - 2 * ((C r k \ P).card : Int)
    52 ∈ [52, 55, 60] ∧ (∀ x ∈ [52, 55, 60], 52 ≤ x) ∧ 0 ∈ P ∧ shapesAtReset.getD 0 0#12 ≠ 0#12 ∧
      (∀ (r : Fin 12) (k : Fin 16), r.val ∈ P → shapesAtReset.getD k.val 0#12 ≠ 0#12 → (r.val, k.val) ≠ (0, 0) → score r.val k.val < score 0 0) ∧
      8 ≤ score 0 0 ∧ ∀ r k : Nat, ¬(r < 12 ∧ k < 16 ∧ r ∈ P ∧ (List.replicate 16 0#12).getD k 0#12 ≠ (0#12 : PitchSet)) := by
  refine ⟨by decide, by decide, by decide, by decide, by decide +kernel, by decide +kernel, fun r k h => h.2.2.2 ?_⟩
  rw [List.getD_eq_getElem?_getD, List.getElem?_replicate]
  split <;> rfl

/-- A match in progress with a queue of some length. -/
def matching (a : ApplyAt) (l : List Nat) (d : Bool) (n : Nat) : State :=
  { State.reset with matcher := some ⟨a, l, shapesAtReset, d⟩, queue := List.replicate n ⟨none, .phrase⟩ }

theorem witness_MatchEndHandlesTheResult :
    State.reset.Quiet ∧ State.reset.matcher = none ∧ (matching .now [60] true 0).Quiet ∧
      (matching .now [60] true 0).matcher = some ⟨.now, [60], shapesAtReset, true⟩ ∧ matchResult shapesAtReset [48, 55] = none ∧
      (matching .now [60] true 0).line.fifo.length ≤ 2 ∧
      matchResult shapesAtReset [52, 55, 60] = some ⟨0, 0, some 4⟩ ∧ (matching .onset [52, 55, 60] false 3).queue.length < 4 ∧
      4 ≤ (matching .phrase [52, 55, 60] false 4).queue.length := by
  unfold State.Quiet; decide +kernel

theorem witness_ChordlineSetsTheReceiver :
    State.reset.Quiet ∧ ((3#8).toNat ≤ 3 ∧ (2#8).toNat ≤ 2 ∧ (1#8).toNat ≤ 1) ∧ ¬(4#8).toNat ≤ 3 ∧ ¬(3#8).toNat ≤ 2 ∧ ¬(2#8).toNat ≤ 1 ∧
      State.reset.line.settings.enable = true ∧ lineOff.Quiet ∧ lineOff.line.settings.enable = false ∧ decide ((1#8 : Byte) = 0#8) = false := by
  unfold State.Quiet; decide +kernel

/-- Silent for one second of hops, with CHORD from the chord line and an entry queued. -/
def quietLine : State :=
  { withLine (fun x => { x with silence := 200, frameSeen := true, cond := .active }) State.reset with
    ctx := { State.reset.ctx with chord := ⟨some ⟨2, 1, none⟩, .source (.auto .chordline), none, none⟩, lineCond := .active }
    queue := [⟨none, .onset⟩] }

theorem witness_ChordlineEntersLost : quietLine.Quiet ∧ quietLine.line.cond = .active ∧ 25 ≠ 0 ∧ 8 * 25 ≤ quietLine.line.silence ∧ quietLine.PinsOwned := by
  unfold State.Quiet State.PinsOwned Field.PinOwned; decide +kernel

theorem test_chordline_enters_lost :
    let t := after (.chordline .panel ⟨1#8, 0#8, 0#8, 25#8, 1#8⟩ 0#8) quietLine
    t.flag .lineLost = true ∧ t.queue = [] ∧ t.ctx.chord.value = none ∧ t.line.cond = .lost := by decide +kernel

/-- The scores of the tally, by the rule's own sum. -/
def tallyScore (k : Fin 12) : Int :=
  2 * (((List.range 12).filter fun x => (0xab5#12).getLsbD x).map fun x => tally.key.acc.getD ((k.val + x) % 12) 0).sum -
    ((tally.key.acc.sum : Nat) : Int)

theorem witness_DecayEventEvaluatesAndHalves :
    State.reset.due.decay = false ∧ tally.due.decay = true ∧ (tally.tables.scales.getD tally.ctx.scale.value.val ⟨0#12, .parallel⟩).members = 0xab5#12 ∧
      (∀ k, tallyScore k ≤ tallyScore 2) ∧ (tallyScore tally.ctx.key.value = tallyScore 2 → (2 : Fin 12) = tally.ctx.key.value) ∧
      (tallyScore tally.ctx.key.value ≠ tallyScore 2 → ∀ k, k < (2 : Fin 12) → tallyScore k < tallyScore 2) ∧ tally.key.acc.length = 12 ∧
      tally.due = { Due.nothing with decay := true } ∧
      (after .decayEvent { tally with key := { tally.key with margin := 0 } }).key.evaluation.map (·.outcome) = some .proposed ∧
      (16 ≤ (16#16).toNat ∧ (4096#16).toNat ≤ 4096 ∧ (4096#16).toNat % 16 = 0 ∧ (63#8).toNat ≤ 63) ∧
      tally.key.acc.getD 0 0 + 65415 ≤ 65535 ∧ 65535 < tally.key.acc.getD 0 0 + 65416 := by decide +kernel

/-- A note start and a DWELL expiry with a key proposal waiting, one of the two left after the other or none. -/
theorem witness_DecayEventProposalWaits :
    (tallyStep (some (.noteOn 45)) false).due.StepMayFollow ∧ ¬tally.due.StepMayFollow ∧
      (let s := after .decayEvent (tallyStep (some (.noteOn 45)) true)
       s.due.proposal = some 2 ∧ s.due.note = some (.noteOn 45) ∧ s.due.dwell = true ∧
         (after .settleComplete { s with due := { s.due with proposal := none } }).due.StepMayFollow) ∧
      (let s := after .decayEvent (tallyStep none true)
       s.due.proposal = some 2 ∧ s.due.dwell = true ∧ ¬(after .dwellExpiry { s with due := { s.due with proposal := none } }).due.StepMayFollow) := by
  refine ⟨.inl ⟨45, rfl⟩, ?_, ⟨by decide +kernel, by decide +kernel, by decide +kernel, .inr (.inr (by decide +kernel))⟩, by decide +kernel, by decide +kernel, ?_⟩
  · rintro (⟨n, h⟩ | ⟨m, n, h⟩ | h) <;> cases h
  · have e : (after .dwellExpiry { after .decayEvent (tallyStep none true) with
      due := { (after .decayEvent (tallyStep none true)).due with proposal := none } }).due = Due.nothing := by decide +kernel
    show ¬ Due.StepMayFollow _
    rw [e]
    rintro (⟨n, h⟩ | ⟨m, n, h⟩ | h) <;> cases h

theorem witness_TargetsFollowModeAndRange :
    (major .upper).members.getLsbD 0 = true ∧ (-7 : Int) ≠ 0 ∧ (shapesAtReset.getD (9 : Fin 16).val 0#12).getLsbD 0 = true ∧ (0 : Int) < 4 ∧ (-4 : Int) < 0 ∧
      (planAtReset .scalar 2 none).mode = .scalar ∧ (planAtReset .chordal 1 (some 2)).mode = .chordal ∧
      (planAtReset .chordal 1 (some 2)).fallback = some 2 ∧ (planAtReset .chordal 1 none).fallback = none ∧ (planAtReset .fixed 12 none).mode = .fixed ∧
      (planAtReset .drone 14 none).mode = .drone ∧ planOff.mode = .off ∧ ContextCopy.atReset.chord = none ∧
      ({ ContextCopy.atReset with chord := some ⟨2, 0, none⟩ }).chord = some ⟨2, 0, none⟩ ∧ (12 : Int) ≤ 71 ∧
      ((9 : Int) < 12 ∧ ((21 : Int) - 9) % 12 = 0 ∧ (12 : Int) ≤ 21 ∧ (21 : Int) < 12 + 12 ∧ (21 : Int) ≤ 71) ∧
      ((71 : Int) < 74 ∧ ((62 : Int) - 74) % 12 = 0 ∧ (62 : Int) ≤ 71 ∧ (71 : Int) - 12 < 62 ∧ (12 : Int) ≤ 62) ∧
      (((33 : Int) - 33) % 12 = 0 ∧ (33 : Int) < 40 ∧ (44 : Int) < 33 + 12) := by decide +kernel

theorem witness_PublicationsResolveTheVoices :
    let v := voiceIn .sounding 8
    ({ v.res with staged := some ⟨planOff, 8⟩ }).staged = some ⟨planOff, 8⟩ ∧ v.res.staged = none ∧ v.res.target ≠ none ∧
      (Voice.atReset 0 []).res.target = none ∧ switchSet ContextCopy.atReset.switches (.enable 0) = true ∧ switchSet (0xae#8) (.enable 0) = false ∧
      switchSet (0xbf#8) .freeze = true ∧ switchSet ContextCopy.atReset.switches .freeze = false ∧ (⟨false, false, false, true, false, 0x11#8⟩ : Changes).usability = true ∧
      (0x11#8).getLsbD 0 = true ∧ (0x11#8).getLsbD 4 = true ∧ (withNote (.noteOff 45) State.reset).due.note = some (.noteOff 45) ∧
      (withNote (.noteOn 45) State.reset).due.note = some (.noteOn 45) ∧
      (withNote (.noteChange 45 47) State.reset).due.note = some (.noteChange 45 47) := by decide +kernel

theorem witness_FadeStepsAndGrainBoundaries :
    State.reset.due.fadeStep = false ∧ ({ Due.nothing with fadeStep := true } : Due).fadeStep = true ∧ (voiceIn .rising 5).ren.state = .rising ∧
      (voiceIn .rising 5).ren.fade < 6 ∧ 6 ≤ (voiceIn .rising 6).ren.fade ∧ (voiceIn .falling 1).ren.state = .falling ∧
      (voiceIn .falling 1).ren.fade ≤ 1 ∧ 1 < (voiceIn .falling 2).ren.fade ∧ (State.reset.voices.get 0).ren.state = .idle ∧
      (voiceIn .sounding 8).ren.state = .sounding ∧ (0 : Fin 4) ≠ 1 ∧ (State.reset.voices.get 0).ren.boundaryDue = false ∧
      ({ RenderRecord.atReset with boundaryDue := true, pending := some 96 }).pending = some 96 ∧ RenderRecord.atReset.pending = none := by
  decide +kernel

theorem witness_GoalsGlidesAndShifts :
    let r := (voiceIn .sounding 8).ren
    RenderRecord.atReset.interval = none ∧ RenderRecord.atReset.glide = none ∧ (planAtReset .scalar 2 none).glide ≠ 0 ∧ planOff.glide = 0 ∧
      r.interval = some 96 ∧ r.state ≠ .idle ∧ (128 : Int) ≠ 96 ∧ r.glide = none ∧
      ({ r with glide := some ⟨96, 128, 1, 3⟩ }).glide = some ⟨96, 128, 1, 3⟩ ∧ 1 ≤ 3 := by decide +kernel

/-- A cue list with the cursor at a step, under condition MANUAL, with or without a dwell expiry due. -/
def atStep (k : Fin 64) (len : Nat) (wrap dwell : Bool) : State :=
  { State.reset with
    tables := { State.reset.tables with cueLength := len, wrap := wrap }
    cue := ⟨some k, 0, true, .manual⟩
    due := { Due.nothing with dwell := dwell } }

theorem witness_CueNavigationEntersSteps :
    State.reset.Quiet ∧ State.reset.cue.cursor = none ∧ State.reset.tables.cueLength = 0 ∧ (atStep 62 64 false false).Quiet ∧
      (atStep 62 64 false false).cue.cursor = some 62 ∧ (63 : Fin 64).val = (62 : Fin 64).val + 1 ∧
      (63 : Fin 64).val < (atStep 62 64 false false).tables.cueLength ∧ (atStep 63 64 true false).tables.cueLength ≤ (63 : Fin 64).val + 1 ∧
      (atStep 63 64 true false).tables.wrap = true ∧ (atStep 63 64 false false).tables.wrap = false ∧ (0 : Fin 64).val = 0 ∧
      (atStep 0 64 true false).tables.cueLength = (63 : Fin 64).val + 1 ∧ (63#8).toNat ≤ 63 ∧
      (63#8).toNat < (atStep 0 64 true false).tables.cueLength ∧ 63 < (64#8).toNat ∧ State.reset.due.dwell = false ∧
      (atStep 62 64 false true).due.dwell = true ∧ (atStep 62 64 false true).due.proposal = none ∧ (atStep 62 64 false true).cue.cursor = some 62 := by
  unfold State.Quiet; decide +kernel

/-- A cue step record at the ends of its ranges. -/
def cueRecord : CueBytes := ⟨1#8, 11#8, 1#8, 6#8, ⟨2#8, 11#8, 9#8, 1#8, 0#8⟩, 0xff#8, 0#8, 1#8, 255#16, [(3#8, 15#8)]⟩

/-- The step that `cueRecord` spells. -/
def cueRecordStep : CueStep := ⟨some 11, some 6, some (some ⟨11, 9, some 0⟩), 0xff#8, 0#8, [(3, 15)], .onsets 255⟩

theorem test_cueload_stores : (after (.cueload .panel 63#8 cueRecord) State.reset).tables.cues.getLast? = some cueRecordStep := by decide +kernel

theorem witness_CueListIsLoadedAndSized :
    (State.reset.Quiet ∧ (63#8).toNat ≤ 63 ∧ 63 < (64#8).toNat ∧ readMark .cueload cueRecord.keyMark = true ∧ cueRecord.key.toNat ≤ 11 ∧
      ¬(12#8).toNat ≤ 11 ∧ cueRecord.scale.toNat ≤ 7 ∧ cueRecord.chord.kind = 2#8 ∧ cueRecord.chord.root.toNat ≤ 11 ∧
      cueRecord.chord.shape.toNat ≤ 15 ∧ cueRecord.chord.bass.toNat ≤ 11 ∧ cueRecord.advance = 1#8 ∧ cueRecord.count.toNat ≤ 255 ∧
      ¬(256#16).toNat ≤ 255 ∧ ¬1 ≤ (0#16).toNat ∧ cueRecord.bindings = [(3#8, 15#8)] ∧ (3#8).toNat ≤ 3 ∧ ¬(4#8).toNat ≤ 3 ∧ (15#8).toNat ≤ 15 ∧ ¬(16#8).toNat ≤ 15) ∧
      (cueRecord.bindings.length ≤ 4 ∧ (cueRecord.bindings.map Prod.fst).Nodup) ∧
      ¬(([(3#8, 15#8), (3#8, 14#8)] : List (Byte × Byte)).map Prod.fst).Nodup ∧
      (State.reset.tables.scales.getD cueRecord.scale.toNat ⟨0#12, .parallel⟩).members ≠ 0#12 ∧
      State.reset.tables.shapes.getD cueRecord.chord.shape.toNat 0#12 ≠ 0#12 ∧
      ¬(State.reset.tables.scales.getD (7#8).toNat ⟨0#12, .parallel⟩).members ≠ 0#12 ∧ (64 < (65#8).toNat ∧ 1 < (2#8).toNat) ∧
      ((64#8).toNat ≤ 64 ∧ (1#8).toNat ≤ 1) ∧ (atStep 63 64 false false).Quiet ∧ (atStep 63 64 false false).cue.cursor = some 63 ∧
      (63#8).toNat ≤ (63 : Fin 64).val ∧ (63 : Fin 64).val < (64#8).toNat ∧ State.reset.cue.cursor = none := by
  unfold State.Quiet; exact ⟨by decide +kernel, by decide +kernel⟩

theorem witness_SetupPortTransactions :
    State.reset.Quiet ∧ State.reset.ports.holder = none ∧ pselHeld.Quiet ∧ pselHeld.ports.holder = some .psel ∧ Select.psel ≠ .dsel ∧
      ({ pselHeld.ports with refused := some .dsel }).refused = some .dsel ∧ ([0x10#8, 2#8, 7#8, 1#8] : List Byte).head? ≠ some 0#8 ∧
      ([7#8, 1#8] : List Byte).length ≤ 30 ∧ decodeRecord .panel 0x10#8 [7#8, 1#8] = .command (.setkey .panel 7#8 1#8) ∧
      decodeRecord .panel 0x18#8 [] = .refused .unknown ∧ ([7#8] : List Byte).length ≠ (2#8).toNat ∧ 30 < (List.replicate 31 0#8).length := by
  unfold State.Quiet; decide +kernel

/-- The stage port in a transfer, its time-out counter running. -/
def transferring (t : Transfer) : State := { State.reset with ports := { State.reset.ports with transfer := t, timer := some 20 } }

theorem witness_StagePortTransfers :
    State.reset.Quiet ∧ (0x5a#8).extractLsb' 1 7 ≠ State.reset.ports.address ∧ (0x58#8).extractLsb' 1 7 = State.reset.ports.address ∧
      (transferring .write).Quiet ∧ (transferring .write).ports.transfer = .write ∧ decodeRecord .stage 0x17#8 [] = .command (.resume .stage) ∧
      decodeRecord .stage 0x15#8 [0#8] = .refused .notPermitted ∧ (List.replicate 14 0#8).length ≤ 14 ∧ 14 < (List.replicate 15 0#8).length ∧
      (transferring (.read .none)).Quiet ∧ (transferring (.read .none)).ports.transfer = .read .none ∧ (transferring .write).ports.timer = some 20 ∧
      State.reset.ports.timer = none := by
  unfold State.Quiet; decide +kernel

theorem witness_RecordsDecodeToTheirCommands :
    encodeArgs (.setkey .panel 7#8 1#8) = some (.panel, .setkey, [7#8, 1#8]) ∧ Manual.panel ∈ Cmd.setkey.sources ∧
      (Instr.setkey .panel 7#8 1#8).wellFormed = true ∧ (∀ c ∈ Cmd.all, c.code ≠ 0x18#8) ∧ Manual.stage ∉ Cmd.locksw.sources ∧
      ([] : List Byte).length ∉ Cmd.setkey.lengths ∧ 1 < (2#8).toNat ∧ (List.replicate 8 (0#8 : Byte)).length = 8 ∧
      (List.replicate 5 (0#8 : Byte)).length = 5 ∧ 2 < (3#8).toNat ∧ (List.replicate 16 (1#8 : Byte)).length ∈ Cmd.cueload.lengths ∧
      ((List.replicate 16 (1#8 : Byte)).getD 15 0#8).toNat ≠ ((List.replicate 16 (1#8 : Byte)).length - 16) / 2 ∧ State.reset.Quiet ∧
      encodeArgs (.locksw .stage 1#8) = some (.stage, .locksw, [1#8]) := by
  unfold State.Quiet; decide +kernel

/-- An output state with its causes. -/
def faulted (o : OutputState) (r h : Bool) : State :=
  { State.reset with
    rate := { State.reset.rate with state := if r then .lost else .locked, causeRate := r }
    fault := { State.reset.fault with output := o, causeHowl := h } }

theorem witness_RestartResetsTheRuntime : singing.Quiet ∧ singing.line.settings.enable = true ∧ singing.rate.causeRate = false ∧ lineOff.Quiet ∧
    lineOff.line.settings.enable = false ∧ (faulted (.degraded .rate) true false).rate.causeRate = true := by
  unfold State.Quiet; decide +kernel

theorem witness_FlagsStayUntilCleared :
    State.reset.Quiet ∧ exec (.cuestop .panel) (State.reset.raise .fault) = .next (after (.cuestop .panel) (State.reset.raise .fault)) ∧
      (∀ src mask, Instr.cuestop .panel ≠ .ackflags src mask) ∧ (∀ src, Instr.cuestop .panel ≠ .restart src) ∧
      (∀ sa, Instr.cuestop .panel ≠ .powerOn sa) ∧ (∀ bytes, Instr.cuestop .panel ≠ .commandTransaction .psel bytes) ∧
      (State.reset.raise .fault).flag .fault = true := by
  refine ⟨rfl, exec_cuestop _ _, fun _ _ h => ?_, fun _ h => ?_, fun _ h => ?_, fun _ h => ?_, by decide⟩ <;> cases h

/-- A howl declaration and a recovery's end due in an output state. -/
def faultsDue (o : OutputState) : State :=
  { State.reset with due := { Due.nothing with howl := true, recovery := true }, fault := { State.reset.fault with output := o } }

theorem witness_FaultCausesMoveTheOutputState :
    (State.reset.fault.howlEnable = true ∧ State.reset.fault.causeHowl = false ∧ ({ State.reset.fault with howlEnable := false }).howlEnable = false ∧
      (58 ≤ 58 ∧ ∀ d ∈ some (4 : Int), 5 - d ≤ 1 ∧ d - 5 ≤ 1) ∧ ¬58 ≤ 57 ∧ State.reset.due.howl = false ∧ (faultsDue .run).due.howl = true ∧
      (faultsDue .run).fault.causeHowl = false ∧ (faultsDue .run).fault.output = .run ∧ (faultsDue (.degraded .rate)).fault.output = .degraded .rate ∧
      (faultsDue .bypass).fault.output = .bypass ∧ (faultsDue (.degraded .howl)).fault.output = .degraded .howl ∧
      (faulted (.degraded .howl) false true).fault.causeHowl = true ∧ State.reset.due.recovery = false ∧ (faultsDue .recovering).due.recovery = true ∧
      (faultsDue .recovering).fault.output = .recovering) ∧
    ((faulted .run false false).Quiet ∧ (faulted .run false false).OutputAgrees) ∧
      ((faulted (.degraded .rate) true false).Quiet ∧ (faulted (.degraded .rate) true false).OutputAgrees) ∧
      ((faulted .recovering false false).Quiet ∧ (faulted .recovering false false).OutputAgrees) ∧
      ((faulted .bypass true true).Quiet ∧ (faulted .bypass true true).OutputAgrees) ∧
      ((faulted .bypass false false).Quiet ∧ (faulted .bypass false false).OutputAgrees) ∧ (faulted .bypass true true).rate.causeRate = true := by
  refine ⟨by decide +kernel, ?_⟩
  simp [State.Quiet, State.OutputAgrees, Rate.InRange, ticksInRange, faulted, State.reset, State.powerOn, Rate.atReset]

/-! The statements about every step: the state `singing`, with a command waiting, meets every invariant and steps on. -/

/-- `singing` with a command at the front of its queue. -/
def stepping : State := { singing with pending := [.cuestop .panel] }

theorem witness_steps : step stepping = .next (after (.cuestop .panel) singing) := exec_cuestop .panel singing

theorem witness_BuffersKeepTheirBounds : stepping.BuffersBounded ∧ stepping.DelayLinesFull ∧ stepping.AccumulatorsBounded := by
  unfold State.BuffersBounded State.DelayLinesFull State.AccumulatorsBounded; decide +kernel

theorem witness_CursorStaysInsideTheList : stepping.CursorInside ∧ (atStep 63 64 false false).CursorInside := by
  unfold State.CursorInside; decide +kernel

theorem witness_TargetsStayInThePlanRange : stepping.TargetsInRange := by
  simp [State.TargetsInRange, State.PlansInRange, State.NotesInRange, Voice.TargetInRange, Plan.InRange, amountInRange, Quad.All,
    DeciderState.NotesInRange, stepping, singing, locked, voiceIn, State.reset, State.powerOn, Tables.atReset, plansAtReset, planAtReset, planOff,
    voicesAtReset, Voice.atReset, RenderRecord.atReset, Due.nothing]

/-- An adoption's premise on the has-target mark. -/
theorem witness_AdoptionMarksTarget : singing.TargetsInRange := witness_TargetsStayInThePlanRange

theorem witness_RendererRecordsStayInRange : stepping.ShiftsInRange ∧ stepping.FadesPlaced ∧ stepping.GlidesBetween := by
  have h : ratioCode 0 = 16384 := by decide +kernel
  simp [State.ShiftsInRange, State.FadesPlaced, State.GlidesBetween, RenderRecord.ShiftsInRange, RenderRecord.FadePlaced,
    RenderRecord.GlideBetween, shiftInRange, Quad.All, stepping, singing, locked, voiceIn, State.reset, State.powerOn, voicesAtReset, Voice.atReset,
    RenderRecord.atReset, h]

theorem witness_VoicesFollowTheSoundCondition : stepping.SilencedIdle ∧ stepping.SoundFollows := by
  unfold State.SilencedIdle State.SoundFollows Quad.All; decide +kernel

theorem witness_ContextAndCopyStayConsistent : stepping.PinsOwned ∧ stepping.CopyCurrent := by
  unfold State.PinsOwned Field.PinOwned State.CopyCurrent; decide +kernel

theorem witness_NamedSlotsStayFilled : stepping.SlotsFilled := by
  simp [State.SlotsFilled, Tables.ChordFilled, Tables.scaleFilled, stepping, singing, locked, State.reset, State.powerOn, Tables.atReset,
    scalesAtReset, Context.atReset, Field.atReset, cueStepEmpty]

theorem witness_OutputStateAgreesWithTheCauses : stepping.OutputAgrees := by
  simp [State.OutputAgrees, Rate.InRange, ticksInRange, stepping, singing, locked, State.reset, State.powerOn, Rate.atReset, FaultMonitor.atReset]

theorem witness_SettingsAndDeciderStayInRange : stepping.SettingsInRange ∧ stepping.DeciderInRange := by
  simp [State.SettingsInRange, State.DeciderInRange, TrackerSettings.InRange, DeciderState.CountsInRange, stepping, singing, locked, State.reset,
    State.powerOn, Tracker.atReset, Line.atReset, KeyTracker.atReset, FaultMonitor.atReset, Ports.atReset]

end Sys2Proof.Tests
end

/-! ## Buffers, delay lines and accumulators (R3, R16, R77, R94, R98, R100) -/

namespace Sys2Proof.Machine

/-! ### The receive FIFO: which operations leave it, and what the assembler takes from it -/

@[simp] theorem State.handCondition_fifo (s : State) (c : LineCondition) : (s.handCondition c).line.fifo = s.line.fifo := by
  simp only [State.handCondition]; split <;> simp

@[simp] theorem State.deriveCondition_fifo (s : State) : s.deriveCondition.line.fifo = s.line.fifo := State.handCondition_fifo s _

@[simp] theorem State.frameContent_fifo (s : State) (c : FrameContent) : (s.frameContent c).line.fifo = s.line.fifo := by
  cases c <;> simp [State.frameContent]

@[simp] theorem State.validFrame_fifo (s : State) (c : FrameContent) : (s.validFrame c).line.fifo = s.line.fifo := by
  simp only [State.validFrame]; split <;> simp

@[simp] theorem State.dropFrame_fifo (s : State) : s.dropFrame.line.fifo = s.line.fifo := by
  simp [State.dropFrame]

@[simp] theorem State.completeFrame_fifo (s : State) (k : FrameKind) (d : List Byte) : (s.completeFrame k d).line.fifo = s.line.fifo := by
  simp only [State.completeFrame]; split <;> simp

@[simp] theorem State.takeHeader_fifo (s : State) (v : Byte) : (s.takeHeader v).line.fifo = s.line.fifo := by
  simp only [State.takeHeader]; (repeat' split) <;> simp

@[simp] theorem State.huntChar_fifo (s : State) (c : LineChar) : (s.huntChar c).line.fifo = s.line.fifo := by
  simp only [State.huntChar]; (repeat' split) <;> simp

@[simp] theorem State.frameChar_fifo (s : State) (k : FrameKind) (n : Nat) (d : List Byte) (c : LineChar) :
    (s.frameChar k n d c).line.fifo = s.line.fifo := by
  simp only [State.frameChar]; (repeat' split) <;> simp

@[simp] theorem State.enableLine_fifo (s : State) : s.enableLine.line.fifo = s.line.fifo := by simp [State.enableLine]

@[simp] theorem State.disableLine_fifo (s : State) : s.disableLine.line.fifo = [] := by
  simp [State.disableLine, Line.abandonReception]

@[simp] theorem State.lineThresholds_fifo (s : State) : s.lineThresholds.line.fifo = s.line.fifo := by
  simp only [State.lineThresholds]; split <;> simp

@[simp] theorem Line.atHop_fifo (l : Line) : l.atHop.fifo = l.fifo := by
  simp only [Line.atHop]; split <;> rfl

/-- R77: the assembler takes characters out of the FIFO and puts none in. -/
theorem State.takeChar_fifo_le (s : State) : s.takeChar.line.fifo.length ≤ s.line.fifo.length := by
  simp only [State.takeChar]; (repeat' split) <;> simp_all

theorem State.drain_fifo_le (n : Nat) (s : State) : (State.drain n s).line.fifo.length ≤ s.line.fifo.length := by
  induction n generalizing s with
  | zero => exact le_rfl
  | succ n ih => exact (ih s.takeChar).trans s.takeChar_fifo_le

/-- R77: a character joins at most one other, or is lost to overrun. -/
theorem State.receive_fifo_le (s : State) (c : LineChar) (h : s.line.fifo.length ≤ 2) : (s.receive c).line.fifo.length ≤ 2 := by
  simp only [State.receive]
  split
  next short => exact (State.drain_fifo_le 2 _).trans (by simpa using short)
  next => simpa using h

theorem State.lineChanged_fifo_le (s : State) (o : LineSettings) : (s.lineChanged o).line.fifo.length ≤ s.line.fifo.length := by
  simp only [State.lineChanged]; (repeat' split) <;> simp [Line.abandonReception]

/-- R77: the FIFO of a state holds at most 2 characters. -/
def State.FifoShort (s : State) : Prop := s.line.fifo.length ≤ 2

theorem State.FifoShort.same {s t : State} (h : s.FifoShort) (e : t.line.fifo = s.line.fifo) : t.FifoShort := by
  rw [State.FifoShort, e]; exact h

theorem fifoShort_kept : Kept State.FifoShort := by
  constructor
  case powerOn => intro s sa _; simp [State.FifoShort, State.powerOn, Line.atReset]
  case takeSilence => intro s h; exact h.same (by simp only [State.takeSilence]; split <;> simp)
  case measurement =>
    intro s m a o h
    refine h.same ?_
    simp only [State.measurement]; (repeat' split) <;> simp [State.hop, State.hopCounts]
  case character =>
    intro s s1 s2 s3 h
    simp only [State.character]
    split
    · exact h
    split
    · exact h.same (by simp)
    · exact State.receive_fifo_le _ _ (by simpa [State.FifoShort] using h)
  case falseStart => intro s s1 s2 s3 h; exact h.same (by simp only [State.falseStart]; split <;> simp)
  case lineBreak => intro s h; exact h.same (by simp only [State.lineBreak]; split <;> simp)
  case matchEnd =>
    intro s h
    simp only [State.matchEnd]
    split
    · exact h
    · exact (State.drain_fifo_le 2 _).trans (by simpa [State.FifoShort] using h)
  case line =>
    intro s b e h
    simp only [State.answerLine, answer]
    split
    · exact h
    · simp only [State.FifoShort, State.lineThresholds_fifo]
      exact (State.lineChanged_fifo_le _ _).trans h
  case restart => intro s _; simp [State.FifoShort, State.answerRestart, answer, State.resetRuntime, Line.restarted]
  all_goals intros; exact State.FifoShort.same ‹_› (by simp)

/-! ### The chord queue -/

/-- R94: the chord queue of a state holds at most 4 entries. -/
def State.QueueShort (s : State) : Prop := s.queue.length ≤ 4

theorem State.QueueShort.same {s t : State} (h : s.QueueShort) (e : t.queue = s.queue) : t.QueueShort := by
  rw [State.QueueShort, e]; exact h

theorem State.QueueShort.flush (s : State) : s.flushQueue.QueueShort := by simp [State.QueueShort]

theorem State.QueueShort.setSwitches {s : State} (h : s.QueueShort) (w : BitVec 8) : (s.setSwitches w).QueueShort := by
  obtain ⟨_, e⟩ | ⟨_, e⟩ := s.setSwitches_cases w <;> rw [e]
  · exact .flush _
  · exact h

theorem State.QueueShort.append {s : State} (h : s.QueueShort) (x : QueueEntry) : (s.appendQueue x).QueueShort := by
  obtain ⟨short, e⟩ | ⟨_, e⟩ := s.appendQueue_cases x <;> rw [e] <;> simp only [State.QueueShort, List.length_append, List.length_drop] at * <;>
    simp <;> omega

theorem State.QueueShort.takeHead {s : State} (h : s.QueueShort) (t : Trigger) : (s.takeHead t).QueueShort := by
  obtain ⟨v, rest, q, e⟩ | ⟨_, e⟩ := s.takeHead_cases t <;> rw [e]
  · simp only [State.QueueShort, q, List.length_cons] at h
    simp only [State.QueueShort, State.autoChord_frame]
    omega
  · exact h

theorem State.QueueShort.stepWritten {s : State} (h : s.QueueShort) (c : CueStep) : ((s.writeStepFields c).writeStepSwitches c).QueueShort :=
  (h.same (by simp) : (s.writeStepFields c).QueueShort).setSwitches _

theorem State.QueueShort.enterStep {s : State} (h : s.QueueShort) (k : Fin 64) : (s.enterStep k).QueueShort :=
  (h.stepWritten (s.tables.cueStep k)).same (by simp [State.enterStep])

theorem State.QueueShort.enterStepHeld {s : State} (h : s.QueueShort) (k : Fin 64) : (s.enterStepHeld k).QueueShort :=
  (h.stepWritten (s.tables.cueStep k)).same (by simp [State.enterStepHeld])

theorem State.QueueShort.advance {s : State} (h : s.QueueShort) : s.advance.QueueShort := by
  simp only [State.advance]
  split
  · exact h
  split
  · exact h.enterStep _
  · exact h.same (by simp)

theorem State.QueueShort.cueOnset {s : State} (h : s.QueueShort) : s.cueOnset.QueueShort := by
  simp only [State.cueOnset, State.advanceHeld]
  (repeat' split) <;> first
    | exact h
    | exact h.enterStepHeld _

theorem State.QueueShort.noteStart {s : State} (h : s.QueueShort) (k : PublicationKind) : (s.noteStart k).QueueShort :=
  (h.takeHead .onset).cueOnset.same (by simp [State.noteStart])

theorem State.QueueShort.noteOff {s : State} (h : s.QueueShort) (n : Nat) : (s.noteOff n).QueueShort :=
  (h.takeHead .phrase).same (by simp [State.noteOff])

theorem State.QueueShort.lossActions {s : State} (h : s.QueueShort) (c : LineCondition) : (s.lossActions c).QueueShort := by
  cases c
  case lost => exact (State.QueueShort.flush s).same (by simp [State.lossActions])
  case broken => exact (State.QueueShort.flush s).same (by simp [State.lossActions])
  all_goals exact h

theorem State.QueueShort.handCondition {s : State} (h : s.QueueShort) (c : LineCondition) : (s.handCondition c).QueueShort := by
  simp only [State.handCondition]
  split
  · exact h
  · exact (h.lossActions c).same (by simp)

theorem State.QueueShort.deriveCondition {s : State} (h : s.QueueShort) : s.deriveCondition.QueueShort := h.handCondition _

theorem State.QueueShort.chordAt {s : State} (h : s.QueueShort) (v : Option Chord) (a : ApplyAt) : (s.chordAt v a).QueueShort := by
  cases a with
  | now => exact (State.QueueShort.flush s).same (by simp [State.chordAt, State.chordNow])
  | onset => exact h.append _
  | phrase => exact h.append _

theorem State.QueueShort.matchOutcome {s : State} (h : s.QueueShort) (m : Match) : (s.matchOutcome m).QueueShort := by
  simp only [State.matchOutcome]
  split
  · exact h
  split
  · exact h.same (by simp)
  · exact h.chordAt _ _

theorem State.QueueShort.validFrame {s : State} (h : s.QueueShort) (c : FrameContent) : (s.validFrame c).QueueShort := by
  have d : (State.deriveCondition
      { s with line := { s.line with assembler := .hunt, silence := 0, frameSeen := true, broken := false } }).QueueShort :=
    State.QueueShort.deriveCondition (by exact h)
  simp only [State.validFrame]
  split
  · cases c with
    | chord v a => exact d.chordAt v a
    | notes a l => exact d
    | key t k => exact d.same (by simp [State.frameContent])
    | alive => exact d
  · exact d

theorem State.QueueShort.completeFrame {s : State} (h : s.QueueShort) (k : FrameKind) (d : List Byte) : (s.completeFrame k d).QueueShort := by
  simp only [State.completeFrame]
  split
  · exact h.validFrame _
  · exact h.same (by simp)

theorem State.QueueShort.huntChar {s : State} (h : s.QueueShort) (c : LineChar) : (s.huntChar c).QueueShort := by
  simp only [State.huntChar, State.takeHeader]
  (repeat' split) <;> first
    | exact h.completeFrame _ _
    | exact h.same (by simp)

theorem State.QueueShort.frameChar {s : State} (h : s.QueueShort) (k : FrameKind) (n : Nat) (d : List Byte) (c : LineChar) :
    (s.frameChar k n d c).QueueShort := by
  simp only [State.frameChar]
  (repeat' split) <;> first
    | exact h.huntChar c
    | exact h.completeFrame _ _
    | exact (h.same (by simp) : (s.raise .frameDrop).QueueShort).huntChar c
    | exact h.same (by simp)

theorem State.QueueShort.takeChar {s : State} (h : s.QueueShort) : s.takeChar.QueueShort := by
  simp only [State.takeChar]
  (repeat' split) <;> first
    | exact h
    | exact State.QueueShort.huntChar (by exact h) _
    | exact State.QueueShort.frameChar (by exact h) _ _ _ _

theorem State.QueueShort.drain (n : Nat) {s : State} (h : s.QueueShort) : (State.drain n s).QueueShort := by
  induction n generalizing s with
  | zero => exact h
  | succ n ih => exact ih h.takeChar

theorem State.QueueShort.receive {s : State} (h : s.QueueShort) (c : LineChar) : (s.receive c).QueueShort := by
  simp only [State.receive]
  split
  · exact .drain 2 h
  · exact h.same (by simp)

theorem State.QueueShort.lineChanged {s : State} (h : s.QueueShort) (o : LineSettings) : (s.lineChanged o).QueueShort := by
  simp only [State.lineChanged]
  (repeat' split) <;> first
    | exact State.QueueShort.handCondition (.flush _) _
    | exact State.QueueShort.handCondition (by exact h) _
    | exact h

/-- R63: a manual switch write. -/
theorem State.QueueShort.switchWrite {s : State} (h : s.QueueShort) (w m : BitVec 8) : (s.switchWrite w m).1.QueueShort :=
  (h.setSwitches w).same (by simp [State.switchWrite])

theorem queueShort_kept : Kept State.QueueShort := by
  constructor
  case powerOn => intro s sa _; simp [State.QueueShort, State.powerOn]
  case takeNoteStart =>
    intro s h; simp only [State.takeNoteStart]; split
    · exact h.noteStart _
    · exact h
  case takeNoteOff =>
    intro s h; simp only [State.takeNoteOff]; split <;> first
      | exact h.noteOff _
      | exact h
  case takeDwell =>
    intro s h; simp only [State.takeDwell]; split
    · exact State.QueueShort.advance (by exact h)
    · exact h
  case takeSilence =>
    intro s h; simp only [State.takeSilence]; split
    · exact State.QueueShort.deriveCondition (by exact h)
    · exact h
  case character =>
    intro s s1 s2 s3 h
    simp only [State.character]
    split
    · exact h
    split
    · exact h.same (by simp)
    · exact State.QueueShort.receive (h.same (by simp)) _
  case lineBreak =>
    intro s h; simp only [State.lineBreak]; split
    · exact State.QueueShort.deriveCondition (by exact h)
    · exact h
  case matchEnd =>
    intro s h
    simp only [State.matchEnd]
    split
    · exact h
    next m _ => exact .drain 2 ((State.QueueShort.matchOutcome (s := { s with matcher := none }) h m).same (by simp))
  case put => intro s src arg h; exact h.switchWrite _ _
  case set => intro s src arg h; exact h.switchWrite _ _
  case clear => intro s src arg h; exact h.switchWrite _ _
  case cuenext =>
    intro s h
    simp only [State.answerCuenext, navigated, answer]
    (repeat' split) <;> first
      | exact h.enterStep _
      | exact h.same (by simp)
  case cueprev =>
    intro s h
    simp only [State.answerCueprev, navigated, answer]
    (repeat' split) <;> first
      | exact h
      | exact h.enterStep _
  case cuegoto =>
    intro s k h
    simp only [State.answerCuegoto, navigated, answer]
    (repeat' split) <;> first
      | exact h
      | exact h.enterStep _
  case line =>
    intro s b e h
    simp only [State.answerLine, answer, State.lineThresholds]
    (repeat' split) <;> first
      | exact h
      | exact State.QueueShort.deriveCondition (.lineChanged (by exact h) _)
      | exact State.QueueShort.lineChanged (by exact h) _
  case restart => intro s _; simp [State.QueueShort, State.answerRestart, answer, State.resetRuntime]
  all_goals intros; exact State.QueueShort.same ‹_› (by simp)

/-! ### The dry delay line and the analysis history -/

@[simp] theorem shiftIn_length (l : List Sample) (x : Sample) : (shiftIn l x).length = l.length - 1 + 1 := by simp [shiftIn]

@[simp] theorem State.completeLearn_history (s : State) : s.completeLearn.tracker.history = s.tracker.history := by
  simp only [State.completeLearn]; (repeat' split) <;> simp

@[simp] theorem State.failLearn_history (s : State) : s.failLearn.tracker.history = s.tracker.history := by simp [State.failLearn]

@[simp] theorem State.rateLoss_history (s : State) : s.rateLoss.tracker.history = s.tracker.history := by simp [State.rateLoss]

@[simp] theorem State.measure_history (s : State) (m : Nat) : (s.measure m).1.tracker.history = s.tracker.history := by
  simp only [State.measure, State.measureLocked]; (repeat' split) <;> simp

@[simp] theorem State.rateAbsence_history (s : State) : s.rateAbsence.tracker.history = s.tracker.history := by
  simp only [State.rateAbsence]; split <;> simp

@[simp] theorem State.report_history (s : State) (a : Analysis) : (s.report a).tracker.history = s.tracker.history := by
  simp [State.report, State.learnReport]

@[simp] theorem State.hop_history (s : State) (a : Analysis) (o : RenderOrder) : (s.hop a o).tracker.history = s.tracker.history := by
  cases o <;> simp [State.hop, State.hopRendering]

@[simp] theorem State.measurement_history (s : State) (m : Nat) (a : Analysis) (o : RenderOrder) :
    (s.measurement m a o).tracker.history = s.tracker.history := by
  simp only [State.measurement]; (repeat' split) <;> simp

@[simp] theorem State.nextFrame_history (s : State) (w : SlotWord) (b : Nat) :
    (s.nextFrame w b).tracker.history = shiftIn s.tracker.history (inputSample w b) := by
  simp [State.nextFrame, State.moveSamples]

@[simp] theorem State.nextFrame_dry (s : State) (w : SlotWord) (b : Nat) :
    (s.nextFrame w b).asp.dry = shiftIn s.asp.dry (inputSample w b) := by
  simp [State.nextFrame, State.beginFrame]

theorem State.DelayLinesFull.same {s t : State} (h : s.DelayLinesFull) (d : t.asp.dry = s.asp.dry)
    (y : t.tracker.history = s.tracker.history) : t.DelayLinesFull := by
  rw [State.DelayLinesFull, d, y]; exact h

theorem delayLinesFull_kept : Kept State.DelayLinesFull := by
  constructor
  case powerOn => intro s sa _; exact ⟨List.length_replicate, List.length_replicate⟩
  case takeLearn => intro s h; exact h.same (by simp) (by simp only [State.takeLearn]; split <;> simp)
  case nextFrame =>
    intro s w b ⟨hd, hh⟩
    simp [State.DelayLinesFull, hd, hh]
  case absence =>
    intro s h
    simp only [State.absence]
    split
    · simp only [State.DelayLinesFull, State.rateAbsence_frame, State.rateAbsence_history]
      exact ⟨List.length_replicate, List.length_replicate⟩
    · exact h
  case tracker => intro s b h; simp only [State.answerTracker, answer]; split <;> exact h
  case learn => intro s m h; simp only [State.answerLearn, answer]; (repeat' split) <;> exact h
  case restart =>
    intro s h
    exact h.same (by simp) (by simp [State.answerRestart, answer, State.resetRuntime])
  all_goals intros; exact State.DelayLinesFull.same ‹_› (by simp) (by simp)

/-! ### The accumulators -/

/-- R98, R100: twelve numbers, each within 0 to 65535. -/
def AccBounded (acc : List Nat) : Prop := acc.length = 12 ∧ ∀ a ∈ acc, a ≤ 65535

theorem accBounded_zero : AccBounded (List.replicate 12 0) := by simp [AccBounded]

theorem AccBounded.halve {acc : List Nat} (h : AccBounded acc) : AccBounded (halve acc) := by
  obtain ⟨len, bound⟩ := h
  refine ⟨by simp [Machine.halve, len], ?_⟩
  simp only [Machine.halve, List.mem_map, forall_exists_index, and_imp, forall_apply_eq_imp_iff₂]
  intro a ha
  have := bound a ha
  omega

theorem AccBounded.getD_le {acc : List Nat} (h : AccBounded acc) (k : Nat) : acc.getD k 0 ≤ 65535 := by
  rw [List.getD_eq_getElem?_getD]
  cases e : acc[k]? with
  | none => simp
  | some a => exact h.2 a (List.mem_of_getElem? e)

theorem getD_halve (acc : List Nat) (k : Nat) : (halve acc).getD k 0 = acc.getD k 0 / 2 := by
  simp only [halve, List.getD_eq_getElem?_getD, List.getElem?_map]
  cases acc[k]? <;> rfl

/-- R99, R100: after the saturation halving the sum fits again. -/
theorem AccBounded.integrate {acc : List Nat} (h : AccBounded acc) (k w : Nat) (hw : w ≤ 32768) : AccBounded (integrate acc k w) := by
  have set_bounded {l : List Nat} (hl : AccBounded l) (v : Nat) (hv : v ≤ 65535) : AccBounded (l.set k v) := by
    refine ⟨by simpa using hl.1, fun a ha => ?_⟩
    obtain m | rfl := List.mem_or_eq_of_mem_set ha
    · exact hl.2 a m
    · exact hv
  simp only [Machine.integrate]
  split
  next overflows =>
    refine set_bounded h.halve _ ?_
    have := h.getD_le k
    rw [getD_halve]
    omega
  next fits => exact set_bounded h _ (by omega)

/-- R16: a report's confidence is at most 15. -/
theorem makeReport_confidence_le (t : TrackerSettings) (n level : Nat) (a : Analysis) : (makeReport t n level a).confidence ≤ 15 := by
  cases a with
  | noPeriod => simp [makeReport, searchResult]
  | found p c => simp only [makeReport, searchResult]; omega

theorem KeyTracker.afterReport_bounded (k : KeyTracker) (r : Report) (d : DeciderState) (hr : r.confidence ≤ 15) (h : AccBounded k.acc) :
    AccBounded (k.afterReport r d).acc := by
  simp only [KeyTracker.afterReport]
  split
  · exact h.integrate _ _ (by omega)
  · exact h

theorem State.report_bounded (s : State) (a : Analysis) (h : AccBounded s.key.acc) : AccBounded (s.report a).key.acc := by
  simp only [State.report, State.howlReport, State.followReport]
  exact KeyTracker.afterReport_bounded _ _ _ (makeReport_confidence_le _ _ _ _) (by simpa using h)

theorem State.hop_bounded (s : State) (a : Analysis) (o : RenderOrder) (h : AccBounded s.key.acc) : AccBounded (s.hop a o).key.acc := by
  simp only [State.hop, State.hopCounts, KeyTracker.atHop]
  cases o <;> simp only [State.hopRendering, State.retest_frame, State.hopWork_frame, State.fadeStep_frame] <;>
    exact State.report_bounded _ _ (by simpa using h)

theorem State.AccumulatorsBounded.same {s t : State} (h : s.AccumulatorsBounded) (e : t.key.acc = s.key.acc) : t.AccumulatorsBounded := by
  rw [State.AccumulatorsBounded, e]; exact h

theorem accumulatorsBounded_kept : Kept State.AccumulatorsBounded := by
  constructor
  case powerOn => intro s sa _; exact accBounded_zero
  case takeEvaluation =>
    intro s h
    simp only [State.takeEvaluation]
    split
    · exact AccBounded.halve h
    · exact h
  case measurement =>
    intro s m a o h
    simp only [State.measurement]
    split
    · exact h
    split
    · exact State.hop_bounded _ a o (by simpa [State.AccumulatorsBounded, AccBounded] using h)
    · exact h.same (by simp)
  case keytrack =>
    intro s b c h
    simp only [State.answerKeytrack, answer]
    split
    · exact h
    · cases c
      · exact h
      · exact accBounded_zero
  case restart =>
    intro s _
    have e : s.answerRestart.1.key.acc = List.replicate 12 0 := by simp [State.answerRestart, answer, State.resetRuntime, KeyTracker.restarted]
    rw [State.AccumulatorsBounded, e]
    exact accBounded_zero
  all_goals intros; exact State.AccumulatorsBounded.same ‹_› (by simp)

/-- Settles O50: each of the three properties is kept by every operation that a step is made of. -/
theorem buffersKeepTheirBounds : Obligations.BuffersKeepTheirBounds := by
  intro s t e
  exact ⟨fun ⟨hf, hq⟩ => ⟨fifoShort_kept.step s t hf e, queueShort_kept.step s t hq e⟩,
    fun h => delayLinesFull_kept.step s t h e, fun h => accumulatorsBounded_kept.step s t h e⟩

end Sys2Proof.Machine


/-! ## Sticky flags alone: which operations leave the rest of the fault monitor (R172, R179) -/

namespace Sys2Proof.Machine

/-- The fault monitor with its sticky flags out of sight: what an operation that may raise flags alone leaves as it is. -/
def FaultMonitor.unflagged (f : FaultMonitor) : FaultMonitor := { f with flags := 0#16 }

@[simp] theorem State.raise_unflagged (s : State) (f : Flag) : (s.raise f).fault.unflagged = s.fault.unflagged := rfl

/-- Equality but for the flags gives equality of every other item. -/
theorem FaultMonitor.of_unflagged {f g : FaultMonitor} (h : f.unflagged = g.unflagged) :
    f.output = g.output ∧ f.causeHowl = g.causeHowl ∧ f.howlCounter = g.howlCounter ∧ f.dev0 = g.dev0 ∧ f.recovery = g.recovery ∧
      f.howlEnable = g.howlEnable ∧ f.window = g.window := by
  cases f; cases g; simpa [FaultMonitor.unflagged] using h

@[simp] theorem State.raiseIf_unflagged (s : State) (c : Bool) (f : Flag) : (s.raiseIf c f).fault.unflagged = s.fault.unflagged := by
  cases c <;> rfl

@[simp] theorem State.appendQueue_unflagged (s : State) (e : QueueEntry) : (s.appendQueue e).fault.unflagged = s.fault.unflagged := by
  simp only [State.appendQueue]; (repeat' split) <;> simp

@[simp] theorem State.writeKey_unflagged (s : State) (v : Fin 12) (x : Source) (p : Bool) :
    (s.writeKey v x p).1.fault.unflagged = s.fault.unflagged := by
  simp [State.writeKey]

@[simp] theorem State.autoKey_unflagged (s : State) (v : Fin 12) (a : Auto) : (s.autoKey v a).fault.unflagged = s.fault.unflagged := by
  simp [State.autoKey]

@[simp] theorem State.writeStepFields_unflagged (s : State) (c : CueStep) : (s.writeStepFields c).fault.unflagged = s.fault.unflagged := by
  simp only [State.writeStepFields]; (repeat' split) <;> simp

@[simp] theorem State.setCursor_unflagged (s : State) (k : Fin 64) (c : CueStep) :
    (s.setCursor k c).fault.unflagged = s.fault.unflagged := by
  rfl

@[simp] theorem State.enterStep_unflagged (s : State) (k : Fin 64) : (s.enterStep k).fault.unflagged = s.fault.unflagged := by
  simp [State.enterStep]

@[simp] theorem State.enterStepHeld_unflagged (s : State) (k : Fin 64) : (s.enterStepHeld k).fault.unflagged = s.fault.unflagged := by
  simp [State.enterStepHeld]

@[simp] theorem State.oneShotStop_unflagged (s : State) : s.oneShotStop.fault.unflagged = s.fault.unflagged := by
  rfl

@[simp] theorem State.advance_unflagged (s : State) : s.advance.fault.unflagged = s.fault.unflagged := by
  simp only [State.advance]; (repeat' split) <;> simp

@[simp] theorem State.cueOnset_unflagged (s : State) : s.cueOnset.fault.unflagged = s.fault.unflagged := by
  simp only [State.cueOnset, State.advanceHeld]; (repeat' split) <;> simp

@[simp] theorem State.takeProposal_unflagged (s : State) : s.takeProposal.fault.unflagged = s.fault.unflagged := by
  simp only [State.takeProposal]; (repeat' split) <;> simp

@[simp] theorem State.completeLearn_unflagged (s : State) : s.completeLearn.fault.unflagged = s.fault.unflagged := by
  simp only [State.completeLearn]; (repeat' split) <;> simp

@[simp] theorem State.failLearn_unflagged (s : State) : s.failLearn.fault.unflagged = s.fault.unflagged := by
  simp [State.failLearn]

@[simp] theorem State.noteStart_unflagged (s : State) (k : PublicationKind) : (s.noteStart k).fault.unflagged = s.fault.unflagged := by
  simp [State.noteStart]

@[simp] theorem State.lossActions_unflagged (s : State) (c : LineCondition) : (s.lossActions c).fault.unflagged = s.fault.unflagged := by
  simp only [State.lossActions]; (repeat' split) <;> simp

@[simp] theorem State.handCondition_unflagged (s : State) (c : LineCondition) :
    (s.handCondition c).fault.unflagged = s.fault.unflagged := by
  simp only [State.handCondition]; (repeat' split) <;> simp

@[simp] theorem State.deriveCondition_unflagged (s : State) : s.deriveCondition.fault.unflagged = s.fault.unflagged := by
  simp [State.deriveCondition]

@[simp] theorem State.chordAt_unflagged (s : State) (v : Option Chord) (a : ApplyAt) :
    (s.chordAt v a).fault.unflagged = s.fault.unflagged := by
  simp only [State.chordAt]; (repeat' split) <;> simp

@[simp] theorem State.frameContent_unflagged (s : State) (c : FrameContent) : (s.frameContent c).fault.unflagged = s.fault.unflagged := by
  simp only [State.frameContent]; (repeat' split) <;> simp

@[simp] theorem State.validFrame_unflagged (s : State) (c : FrameContent) : (s.validFrame c).fault.unflagged = s.fault.unflagged := by
  simp only [State.validFrame]; (repeat' split) <;> simp

@[simp] theorem State.dropFrame_unflagged (s : State) : s.dropFrame.fault.unflagged = s.fault.unflagged := by
  simp [State.dropFrame]

@[simp] theorem State.completeFrame_unflagged (s : State) (k : FrameKind) (d : List Byte) :
    (s.completeFrame k d).fault.unflagged = s.fault.unflagged := by
  simp only [State.completeFrame]; (repeat' split) <;> simp

@[simp] theorem State.huntChar_unflagged (s : State) (c : LineChar) : (s.huntChar c).fault.unflagged = s.fault.unflagged := by
  simp only [State.huntChar, State.takeHeader]; (repeat' split) <;> simp

@[simp] theorem State.frameChar_unflagged (s : State) (k : FrameKind) (n : Nat) (d : List Byte) (c : LineChar) :
    (s.frameChar k n d c).fault.unflagged = s.fault.unflagged := by
  simp only [State.frameChar]; (repeat' split) <;> simp

@[simp] theorem State.takeChar_unflagged (s : State) : s.takeChar.fault.unflagged = s.fault.unflagged := by
  simp only [State.takeChar]; (repeat' split) <;> simp

@[simp] theorem State.drain_unflagged (n : Nat) (s : State) : (State.drain n s).fault.unflagged = s.fault.unflagged := by
  induction n generalizing s with
  | zero => rfl
  | succ n ih => exact (ih s.takeChar).trans s.takeChar_unflagged

@[simp] theorem State.receive_unflagged (s : State) (c : LineChar) : (s.receive c).fault.unflagged = s.fault.unflagged := by
  simp only [State.receive]; (repeat' split) <;> simp

@[simp] theorem State.character_unflagged (s : State) (s1 s2 s3 : BitVec 12) :
    (s.character s1 s2 s3).fault.unflagged = s.fault.unflagged := by
  simp only [State.character]; (repeat' split) <;> simp

@[simp] theorem State.falseStart_unflagged (s : State) (s1 s2 s3 : Bool) : (s.falseStart s1 s2 s3).fault.unflagged = s.fault.unflagged := by
  simp only [State.falseStart]; (repeat' split) <;> simp

@[simp] theorem State.lineBreak_unflagged (s : State) : s.lineBreak.fault.unflagged = s.fault.unflagged := by
  simp only [State.lineBreak]; (repeat' split) <;> simp

@[simp] theorem State.matchOutcome_unflagged (s : State) (m : Match) : (s.matchOutcome m).fault.unflagged = s.fault.unflagged := by
  simp only [State.matchOutcome]; (repeat' split) <;> simp

@[simp] theorem State.matchEnd_unflagged (s : State) : s.matchEnd.fault.unflagged = s.fault.unflagged := by
  simp only [State.matchEnd]; (repeat' split) <;> simp

@[simp] theorem State.lineChanged_unflagged (s : State) (o : LineSettings) : (s.lineChanged o).fault.unflagged = s.fault.unflagged := by
  simp only [State.lineChanged, State.disableLine, State.enableLine]; (repeat' split) <;> simp

@[simp] theorem State.lineThresholds_unflagged (s : State) : s.lineThresholds.fault.unflagged = s.fault.unflagged := by
  simp only [State.lineThresholds]; (repeat' split) <;> simp

@[simp] theorem State.takeLearn_unflagged (s : State) : s.takeLearn.fault.unflagged = s.fault.unflagged := by
  simp only [State.takeLearn]; (repeat' split) <;> simp

@[simp] theorem State.takeNoteStart_unflagged (s : State) : s.takeNoteStart.fault.unflagged = s.fault.unflagged := by
  simp only [State.takeNoteStart]; (repeat' split) <;> simp

@[simp] theorem State.takeDwell_unflagged (s : State) : s.takeDwell.fault.unflagged = s.fault.unflagged := by
  simp only [State.takeDwell]; (repeat' split) <;> simp

@[simp] theorem State.takeSilence_unflagged (s : State) : s.takeSilence.fault.unflagged = s.fault.unflagged := by
  simp only [State.takeSilence]; (repeat' split) <;> simp

@[simp] theorem State.answerSetkey_unflagged (s : State) (src : Manual) (a b : Byte) :
    (s.answerSetkey src a b).1.fault.unflagged = s.fault.unflagged := by
  simp only [State.answerSetkey, answer]; (repeat' split) <;> simp

@[simp] theorem State.answerUnpin_unflagged (s : State) (src : Manual) (a : Byte) :
    (s.answerUnpin src a).1.fault.unflagged = s.fault.unflagged := by
  simp only [State.answerUnpin, unpinAnswer, answer]; (repeat' split) <;> simp

@[simp] theorem State.answerCuenext_unflagged (s : State) : (s.answerCuenext).1.fault.unflagged = s.fault.unflagged := by
  simp only [State.answerCuenext, navigated, answer]; (repeat' split) <;> simp

@[simp] theorem State.answerCueprev_unflagged (s : State) : (s.answerCueprev).1.fault.unflagged = s.fault.unflagged := by
  simp only [State.answerCueprev, navigated, answer]; (repeat' split) <;> simp

@[simp] theorem State.answerCuegoto_unflagged (s : State) (k : Byte) : (s.answerCuegoto k).1.fault.unflagged = s.fault.unflagged := by
  simp only [State.answerCuegoto, navigated, answer]; (repeat' split) <;> simp

@[simp] theorem State.answerAckflags_unflagged (s : State) (m : BitVec 16) :
    (s.answerAckflags m).1.fault.unflagged = s.fault.unflagged := by
  rfl

@[simp] theorem State.answerLine_unflagged (s : State) (b : LineBytes) (e : Option Bool) :
    (s.answerLine b e).1.fault.unflagged = s.fault.unflagged := by
  simp only [State.answerLine, answer]; (repeat' split) <;> simp

end Sys2Proof.Machine


/-! ## The rate records in range, and the output state in agreement with the causes (R5 to R14, R175, R176) -/

namespace Sys2Proof.Machine

/-! ### Lists of measurements -/

theorem joinList_length_le (l : List Nat) (m : Nat) : (joinList l m).length ≤ 4 := by
  simp [joinList]; omega

theorem mem_joinList {l : List Nat} {m x : Nat} (h : x ∈ joinList l m) : x ∈ l ∨ x = m := by
  simpa using List.mem_of_mem_drop h

theorem agrees_length {l : List Nat} (h : agrees l = true) : l.length = 4 := by
  simp only [agrees, Bool.and_eq_true, beq_iff_eq] at h; exact h.1

/-- R8, R14: the mean of four measurements in range is in range. -/
theorem ticksInRange_meanOf {l : List Nat} (len : l.length = 4) (h : ∀ m ∈ l, ticksInRange m) : ticksInRange (meanOf l) := by
  match l, len with
  | [a, b, c, d], _ =>
    simp only [List.mem_cons, List.not_mem_nil, or_false, forall_eq_or_imp, forall_eq, ticksInRange] at h
    simp only [meanOf, List.foldl_cons, List.foldl_nil, ticksInRange]
    omega

/-! ### The moves of the rate monitor -/

/-- Table 1.9: a measurement that has a class lies in the range that the manual admits. -/
theorem Rate.classOf_ticks {r : Rate} (h : r.InRange) {m : Nat} {c : RateClass} (e : r.classOf m = some c) : ticksInRange m := by
  obtain ⟨-, wmin, wmax, -⟩ := h
  simp only [Rate.classOf] at e
  simp only [ticksInRange] at *
  cases hm : r.mode <;> simp only [hm] at e <;> split at e
  case auto.isFalse => split at e <;> [omega; cases e]
  case manual.isFalse => cases e
  all_goals omega

theorem Rate.inLock_ticks {r : Rate} (h : r.InRange) {m : Nat} (e : r.inLock m = true) : ticksInRange m := by
  have some_class : ∃ c, r.classOf m = some c := by
    simp only [Rate.inLock] at e
    split at e
    · exact ⟨_, by simpa using e⟩
    · exact ⟨_, by simpa using e⟩
    · exact Option.isSome_iff_exists.mp e
  obtain ⟨c, hc⟩ := some_class
  exact Rate.classOf_ticks h hc

/-- The count of the frames of a measurement in progress has no range. -/
theorem Rate.InRange.run {r : Rate} (h : r.InRange) (x : Option Nat) : Rate.InRange { r with run := x } := h

theorem Rate.InRange.acquire {r : Rate} (h : r.InRange) (m : Nat) : (r.acquire m).InRange := by
  obtain ⟨nr, wmin, wmax, acq, len, rem, out, off, lost⟩ := id h
  simp only [Rate.acquire]
  split
  next => exact ⟨nr, wmin, wmax, by simp, by simp, rem, out, off, lost⟩
  next c hc =>
    have hm := Rate.classOf_ticks h hc
    split
    · refine ⟨nr, wmin, wmax, fun x hx => ?_, joinList_length_le _ _, rem, out, off, lost⟩
      obtain old | rfl := mem_joinList hx
      · exact acq x old
      · exact hm
    · exact ⟨nr, wmin, wmax, by simpa using hm, by simp, rem, out, off, lost⟩

theorem Rate.acquire_causeRate (r : Rate) (m : Nat) : (r.acquire m).causeRate = r.causeRate := by
  simp only [Rate.acquire]; (repeat' split) <;> rfl

/-- R8: a list that agrees ends with the measurement that completed it, which has a class. -/
theorem Rate.acquire_agrees_ticks {r : Rate} (h : r.InRange) {m : Nat} (e : agrees (r.acquire m).acquisition = true) : ticksInRange m := by
  cases hc : r.classOf m with
  | none => simp [Rate.acquire, hc, agrees] at e
  | some c => exact Rate.classOf_ticks h hc

theorem Rate.InRange.lock {r : Rate} (h : r.InRange) {m : Nat} (hm : ticksInRange m) (e : agrees r.acquisition = true) : (r.lock m).InRange := by
  obtain ⟨-, wmin, wmax, acq, -, rem, -, -, -⟩ := h
  refine ⟨?_, wmin, wmax, by simp [Rate.lock], by simp [Rate.lock], rem, by simp [Rate.lock], fun _ => rfl, by simp [Rate.lock]⟩
  simp only [Rate.lock]
  cases r.method with
  | track => exact hm
  | hold => exact ticksInRange_meanOf (agrees_length e) acq

theorem Rate.InRange.accept {r : Rate} (h : r.InRange) {m : Nat} (hm : ticksInRange m) : (r.accept m).InRange := by
  obtain ⟨nr, wmin, wmax, acq, len, rem, -, off, lost⟩ := h
  refine ⟨?_, wmin, wmax, acq, len, rem, Nat.zero_le _, off, lost⟩
  simp only [Rate.accept]
  cases r.method with
  | track => exact hm
  | hold => exact nr

theorem Rate.remeasured_causeRate (r : Rate) (m : Nat) (b : Bool) : (r.remeasured m b).1.causeRate = r.causeRate := by
  simp only [Rate.remeasured]; (repeat' split) <;> rfl

theorem Rate.InRange.remeasured {r : Rate} (h : r.InRange) {m : Nat} {b : Bool} (hm : b = true → ticksInRange m) :
    (r.remeasured m b).1.InRange := by
  obtain ⟨nr, wmin, wmax, acq, len, rem, out, off, lost⟩ := id h
  cases hl : r.remeasure with
  | none => simpa [Rate.remeasured, hl] using h
  | some l =>
    have short : (if b then joinList l m else []).length ≤ 4 := by
      cases b
      · simp
      · exact joinList_length_le l m
    have ticks : ∀ x ∈ if b then joinList l m else [], ticksInRange x := by
      cases b
      · simp
      · intro x hx
        obtain old | rfl := mem_joinList hx
        · exact (rem l hl).2 x old
        · exact hm rfl
    simp only [Rate.remeasured, hl]
    generalize (if b then joinList l m else []) = k at short ticks
    split
    next e =>
      refine ⟨?_, wmin, wmax, acq, len, by simp, out, off, lost⟩
      cases r.method with
      | track => exact nr
      | hold => exact ticksInRange_meanOf (agrees_length e) ticks
    next => exact ⟨nr, wmin, wmax, acq, len, by simpa using ⟨short, ticks⟩, out, off, lost⟩

theorem Rate.InRange.lose {r : Rate} (h : r.InRange) : r.lose.InRange := by
  obtain ⟨nr, wmin, wmax, acq, len, -, -, -, -⟩ := h
  exact ⟨nr, wmin, wmax, acq, len, by simp [Rate.lose], by simp [Rate.lose], by simp [Rate.lose], fun _ => rfl⟩

theorem Rate.atFrame_causeRate (r : Rate) : r.atFrame.causeRate = r.causeRate := by
  cases h : r.state <;> simp [Rate.atFrame, h]

theorem Rate.InRange.atFrame {r : Rate} (h : r.InRange) : r.atFrame.InRange := by
  obtain ⟨nr, wmin, wmax, acq, len, rem, out, off, lost⟩ := id h
  simp only [Rate.atFrame]
  split
  next => exact ⟨nr, wmin, wmax, by simp, by simp, rem, out, by simp, by simp⟩
  next => exact ⟨nr, wmin, wmax, by simp, by simp, rem, out, by simp, by simp⟩
  next => exact h
  next => exact h

/-- R13: the settings that a RATE record carries lie in range. -/
theorem Rate.InRange.set {r : Rate} (h : r.InRange) {b : RateBytes} {c : RateMode × RateMethod × Nat × Nat} (e : readRate b = some c) :
    (r.set c).InRange := by
  obtain ⟨nr, -, -, rest⟩ := h
  simp only [readRate] at e
  split at e
  · split at e
    next w =>
      obtain rfl := Option.some.inj e
      exact ⟨nr, by simp only [Rate.set, ticksInRange]; omega, by simp only [Rate.set, ticksInRange]; omega, rest⟩
    next => cases e
  · cases e

/-! ### The output state and the causes -/

/-- R175, R176, Table 11.1: the output state `o` beside the presence of causes RATE and HOWL. -/
def OutputState.Names (o : OutputState) (rate howl : Bool) : Prop :=
  match o with
  | .run => rate = false ∧ howl = false
  | .degraded .rate => rate = true ∧ howl = false
  | .degraded .howl => rate = false ∧ howl = true
  | .recovering => rate = false ∧ howl = false
  | .bypass => True

/-- The output state of a state agrees with its causes. -/
def State.CausesNamed (s : State) : Prop := s.fault.output.Names s.rate.causeRate s.fault.causeHowl

theorem State.outputAgrees_iff (s : State) : s.OutputAgrees ↔ s.rate.InRange ∧ s.CausesNamed := Iff.rfl

theorem State.CausesNamed.same {s t : State} (h : s.CausesNamed) (r : t.rate.causeRate = s.rate.causeRate)
    (f : t.fault.unflagged = s.fault.unflagged) : t.CausesNamed := by
  obtain ⟨o, c, -⟩ := FaultMonitor.of_unflagged f
  rw [State.CausesNamed, r, o, c]; exact h

@[simp] theorem State.enterBypass_output (s : State) : s.enterBypass.fault.output = .bypass := by simp [State.enterBypass]
@[simp] theorem State.enterBypass_causeHowl (s : State) : s.enterBypass.fault.causeHowl = s.fault.causeHowl := by simp [State.enterBypass]

@[simp] theorem State.causeAppears_causeHowl (s : State) (k : Cause) : (s.causeAppears k).fault.causeHowl = s.fault.causeHowl := by
  simp only [State.causeAppears]; (repeat' split) <;> simp

@[simp] theorem State.causeClears_causeHowl (s : State) (k : Cause) : (s.causeClears k).fault.causeHowl = s.fault.causeHowl := by
  simp only [State.causeClears]; split <;> simp

/-- R176: what the appearance of a cause makes of the output state. -/
theorem State.causeAppears_output (s : State) (k : Cause) :
    (s.causeAppears k).fault.output =
      if s.fault.output = .run ∨ s.fault.output = .degraded k then .degraded k else .bypass := by
  simp only [State.causeAppears]
  cases h : s.fault.output with
  | degraded j =>
    by_cases e : j = k
    · simp [h, e]
    · simp [e]
  | _ => simp [h]

/-- R176: what the clearing of a cause makes of the output state. -/
theorem State.causeClears_output (s : State) (k : Cause) :
    (s.causeClears k).fault.output = if s.fault.output = .degraded k then .recovering else s.fault.output := by
  simp only [State.causeClears]; split <;> simp

/-- R176: cause RATE appears; it was absent before. -/
theorem State.causeAppears_rate_names (s : State) (h : s.fault.output.Names false s.fault.causeHowl) :
    (s.causeAppears .rate).fault.output.Names true s.fault.causeHowl := by
  rw [State.causeAppears_output]
  match e : s.fault.output, h with
  | .run, h => simpa [OutputState.Names] using h
  | .degraded .rate, h => simp [OutputState.Names] at h
  | .degraded .howl, _ => simp [OutputState.Names]
  | .recovering, _ => simp [OutputState.Names]
  | .bypass, _ => simp [OutputState.Names]

/-- R176: cause HOWL appears; it was absent before. -/
theorem State.causeAppears_howl_names (s : State) (h : s.fault.output.Names s.rate.causeRate false) :
    (s.causeAppears .howl).fault.output.Names s.rate.causeRate true := by
  rw [State.causeAppears_output]
  match e : s.fault.output, h with
  | .run, h => simpa [OutputState.Names] using h
  | .degraded .howl, h => simp [OutputState.Names] at h
  | .degraded .rate, _ => simp [OutputState.Names]
  | .recovering, _ => simp [OutputState.Names]
  | .bypass, _ => simp [OutputState.Names]

/-- R176: cause RATE clears. -/
theorem State.causeClears_rate_names (s : State) {r : Bool} (h : s.fault.output.Names r s.fault.causeHowl) :
    (s.causeClears .rate).fault.output.Names false s.fault.causeHowl := by
  rw [State.causeClears_output]
  match e : s.fault.output, h with
  | .run, h => simpa [OutputState.Names] using h.2
  | .degraded .rate, h => simpa [OutputState.Names] using h.2
  | .degraded .howl, h => simpa [OutputState.Names] using h.2
  | .recovering, h => simpa [OutputState.Names] using h.2
  | .bypass, _ => simp [OutputState.Names]

/-- R176: cause HOWL clears. -/
theorem State.causeClears_howl_names (s : State) {c : Bool} (h : s.fault.output.Names s.rate.causeRate c) :
    (s.causeClears .howl).fault.output.Names s.rate.causeRate false := by
  rw [State.causeClears_output]
  match e : s.fault.output, h with
  | .run, h => simpa [OutputState.Names] using h.1
  | .degraded .rate, h => simpa [OutputState.Names] using h.1
  | .degraded .howl, h => simpa [OutputState.Names] using h.1
  | .recovering, h => simpa [OutputState.Names] using h.1
  | .bypass, _ => simp [OutputState.Names]

@[simp] theorem State.howlSilent_causeHowl (s : State) : s.howlSilent.fault.causeHowl = false := by
  simp only [State.howlSilent]; split <;> simp

/-- R173: an entry of the decider to SILENT clears cause HOWL. -/
theorem State.CausesNamed.howlSilent {s : State} (h : s.CausesNamed) : s.howlSilent.CausesNamed := by
  rw [State.CausesNamed, State.howlSilent_causeHowl, (State.howlSilent_frame s).2.1]
  simp only [State.howlSilent]
  split
  next present => exact State.causeClears_howl_names { s with fault := { s.fault with causeHowl := false, howlCounter := 0, dev0 := none } } h
  next absent =>
    rw [State.CausesNamed, Bool.eq_false_of_not_eq_true absent] at h
    exact h

theorem State.CausesNamed.howlAppears {s : State} (h : s.CausesNamed) : s.howlAppears.CausesNamed := by
  simp only [State.howlAppears]
  split
  · exact h
  next absent =>
    rw [State.CausesNamed, Bool.eq_false_of_not_eq_true absent] at h
    simp only [State.CausesNamed, State.causeAppears_frame, State.causeAppears_causeHowl]
    exact State.causeAppears_howl_names { s with fault := { s.fault with causeHowl := true } } h

/-- R177: RUN, with both causes absent. -/
theorem State.enterRun_causesNamed {s : State} (r : s.rate.causeRate = false) (h : s.fault.causeHowl = false) : s.enterRun.CausesNamed := by
  simp [State.CausesNamed, State.enterRun, OutputState.Names, r, h]

theorem State.CausesNamed.of_recovering {s : State} (h : s.CausesNamed) (e : s.fault.output = .recovering) :
    s.rate.causeRate = false ∧ s.fault.causeHowl = false := by
  rw [State.CausesNamed, e] at h; exact h

@[simp] theorem State.rateLoss_rate (s : State) : s.rateLoss.rate = s.rate.lose := by simp [State.rateLoss]

/-- R11, R176: a rate loss, from a state with cause RATE absent. -/
theorem State.CausesNamed.rateLoss {s : State} (h : s.CausesNamed) (absent : s.rate.causeRate = false) : s.rateLoss.CausesNamed := by
  have silent : s.forceSilent.CausesNamed := State.CausesNamed.howlSilent (by exact h)
  have lost : (State.failLearn (State.forceSilent { s with rate := s.rate.lose })).fault.unflagged = s.forceSilent.fault.unflagged := by
    rw [State.failLearn_unflagged]
    simp only [State.forceSilent, State.howlSilent, State.causeClears]
    (repeat' split) <;> simp_all
  obtain ⟨output, howl, -⟩ := FaultMonitor.of_unflagged lost
  have before : s.forceSilent.fault.output.Names false s.forceSilent.fault.causeHowl := by
    rw [State.CausesNamed, (State.forceSilent_frame s).2.1, absent] at silent
    exact silent
  rw [← output, ← howl] at before
  have after := State.causeAppears_rate_names _ before
  simpa [State.CausesNamed, State.rateLoss, Rate.lose] using after

/-! ### Hops -/

theorem State.CausesNamed.report {s : State} (h : s.CausesNamed) (a : Analysis) : (s.report a).CausesNamed := by
  have decided : ∀ r, ((s.learnReport r).decideReport r).CausesNamed := by
    intro r
    simp only [State.decideReport]
    split
    · exact State.CausesNamed.howlSilent (by exact h)
    · exact h
  have heard : ∀ (t : State) (r : Report), t.CausesNamed → (t.howlReport r).CausesNamed := by
    intro t r ht
    simp only [State.howlReport, FaultMonitor.howlReport]
    (repeat' split) <;> exact ht
  exact heard _ _ (decided _)

theorem State.CausesNamed.hop {s : State} (h : s.CausesNamed) (a : Analysis) (o : RenderOrder) : (s.hop a o).CausesNamed := by
  have counted : s.recoveryHop.CausesNamed := by
    simp only [State.recoveryHop, FaultMonitor.atHop]
    split <;> exact h
  refine State.CausesNamed.same (s := s.recoveryHop.hopRendering a o) ?_ (by simp [State.hop]) (by simp [State.hop])
  cases o
  case first => exact (State.CausesNamed.report (s := s.recoveryHop.fadeStep.hopWork) (counted.same (by simp) (by simp)) a).same (by simp [State.hopRendering]) (by simp [State.hopRendering])
  all_goals exact (counted.report a).same (by simp [State.hopRendering]) (by simp [State.hopRendering])

/-- R5, R8, R9, R11: a measurement keeps the rate records in range and the output state in agreement. -/
theorem State.OutputAgrees.measure {s : State} (h : s.OutputAgrees) (m : Nat) : (s.measure m).1.OutputAgrees := by
  obtain ⟨range, named⟩ := s.outputAgrees_iff.mp h
  rw [State.outputAgrees_iff]
  simp only [State.measure]
  split
  next =>
    simp only [State.measureAcquiring]
    split
    next agree =>
      refine ⟨by simpa using (range.acquire m).lock (Rate.acquire_agrees_ticks range agree) agree, ?_⟩
      have cleared := State.causeClears_rate_names { s with rate := (s.rate.acquire m).lock m } (r := s.rate.causeRate) named
      simpa [State.CausesNamed, Rate.lock] using cleared
    next => exact ⟨range.acquire m, named.same (Rate.acquire_causeRate _ _) rfl⟩
  next locked =>
    simp only [State.measureLocked]
    split
    next inside =>
      have ticks := Rate.inLock_ticks range inside
      exact ⟨by simpa using (range.accept ticks).remeasured (fun _ => ticks),
        named.same (by simp [Rate.remeasured_causeRate, Rate.accept]) (by simp)⟩
    split
    next few =>
      obtain ⟨nr, wmin, wmax, acq, len, rem, -, off, lost⟩ := range
      have counted : Rate.InRange { s.rate with outCount := s.rate.outCount + 1 } :=
        ⟨nr, wmin, wmax, acq, len, rem, by simpa using Nat.le_of_lt_succ few, off, lost⟩
      exact ⟨counted.remeasured (by simp), named.same (Rate.remeasured_causeRate _ _ _) rfl⟩
    next =>
      obtain ⟨-, -, -, -, -, -, -, off, -⟩ := id range
      exact ⟨by simpa using range.lose, named.rateLoss (off (.inr locked))⟩
  next => exact ⟨range, named⟩
  next => exact ⟨range, named⟩

/-- R10, R11: a frame absence in each rate state. -/
theorem State.OutputAgrees.rateAbsence {s : State} (h : s.OutputAgrees) : s.rateAbsence.OutputAgrees := by
  obtain ⟨range, named⟩ := s.outputAgrees_iff.mp h
  obtain ⟨nr, wmin, wmax, acq, len, rem, out, off, -⟩ := id range
  rw [State.outputAgrees_iff]
  simp only [State.rateAbsence]
  split
  next locked => exact ⟨by simpa using range.lose, named.rateLoss (off (.inr locked))⟩
  next =>
    refine ⟨⟨nr, wmin, wmax, by simp, by simp, rem, out, ?_, ?_⟩, named⟩ <;> cases s.rate.causeRate <;> simp
  next => exact ⟨range, named⟩
  next => exact ⟨range, named⟩

theorem State.OutputAgrees.same {s t : State} (h : s.OutputAgrees) (r : t.rate = s.rate) (f : t.fault.unflagged = s.fault.unflagged) :
    t.OutputAgrees := by
  rw [State.outputAgrees_iff] at h ⊢
  exact ⟨r ▸ h.1, h.2.same (by rw [r]) f⟩

theorem State.powerOn_outputAgrees (sa : BitVec 2) : (State.powerOn sa).OutputAgrees := by
  simp [State.OutputAgrees, State.powerOn, Rate.atReset, FaultMonitor.atReset, Rate.InRange, ticksInRange]

theorem outputAgrees_kept : Kept State.OutputAgrees := by
  constructor
  case powerOn => intro s sa _; exact State.powerOn_outputAgrees sa
  case takeHowl =>
    intro s h
    simp only [State.takeHowl]
    split
    · rw [State.outputAgrees_iff] at h ⊢
      exact ⟨by simpa using h.1, State.CausesNamed.same (.howlAppears (s := { s with due := { s.due with howl := false } }) h.2) (by simp) (by simp)⟩
    · exact h
  case takeRecovery =>
    intro s h
    simp only [State.takeRecovery]
    split
    · split
      next recovering =>
        rw [State.outputAgrees_iff] at h ⊢
        obtain ⟨r, c⟩ := h.2.of_recovering recovering
        exact ⟨by simpa using h.1, State.enterRun_causesNamed r c⟩
      next => exact h
    · exact h
  case nextFrame =>
    intro s w b h
    rw [State.outputAgrees_iff] at h ⊢
    have e : (s.nextFrame w b).rate = s.rate.atFrame := by simp [State.nextFrame, State.beginFrame]
    exact ⟨e ▸ h.1.atFrame, h.2.same (by rw [e, Rate.atFrame_causeRate]) (by simp)⟩
  case absence =>
    intro s h
    simp only [State.absence]
    split
    · exact State.OutputAgrees.rateAbsence (by exact h)
    · exact h
  case measurement =>
    intro s m a o h
    simp only [State.measurement]
    split
    · exact h
    next n _ =>
    have measured := State.OutputAgrees.measure (s := { s with rate := { s.rate with run := some n } }) h m
    split
    · rw [State.outputAgrees_iff] at measured ⊢
      exact ⟨by simpa using measured.1, measured.2.hop a o⟩
    · exact measured
  case rate =>
    intro s b h
    simp only [State.answerRate, answer]
    split
    · exact h
    next c e => exact (State.outputAgrees_iff _).mpr ⟨(s.outputAgrees_iff.mp h).1.set e, (s.outputAgrees_iff.mp h).2⟩
  case remeasure =>
    intro s b h
    rw [State.outputAgrees_iff] at h ⊢
    simp only [State.answerRemeasure, answer]
    split
    · exact h
    next c e =>
      have settings := h.1.set e
      split
      · obtain ⟨nr, wmin, wmax, acq, len, -, rest⟩ := settings
        exact ⟨⟨nr, wmin, wmax, acq, len, by simp, rest⟩, h.2⟩
      · exact ⟨settings, h.2⟩
  case howl =>
    intro s e w h
    simp only [State.answerHowl, answer]
    (repeat' split) <;> exact h
  case clearfault =>
    intro s h
    have run (none_present : ¬(s.rate.causeRate || s.fault.causeHowl) = true) : s.enterRun.OutputAgrees := by
      rw [State.outputAgrees_iff] at h ⊢
      simp only [Bool.or_eq_true, not_or, Bool.not_eq_true] at none_present
      exact ⟨by simpa using h.1, State.enterRun_causesNamed none_present.1 none_present.2⟩
    simp only [State.answerClearfault]
    (repeat' split) <;> first
      | exact h
      | exact run ‹_›
  case restart =>
    intro s h
    rw [State.outputAgrees_iff] at h ⊢
    refine ⟨by simpa using h.1, ?_⟩
    cases e : s.rate.causeRate <;>
      simp [State.CausesNamed, State.answerRestart, answer, State.resetRuntime, FaultMonitor.restarted, OutputState.Names, e]
  all_goals intros; exact State.OutputAgrees.same ‹_› (by simp) (by simp)

/-- Settles O58: every operation that a step is made of keeps the agreement. -/
theorem outputStateAgreesWithTheCauses : Obligations.OutputStateAgreesWithTheCauses :=
  fun s t e h => outputAgrees_kept.step s t h e

end Sys2Proof.Machine


/-! ## Power-on (R6, R15, R16, R22, R28, R53, R81, R98, R148) -/

namespace Sys2Proof.Machine

/-- Settles O3: every value is read off the power-on state. -/
theorem powerOnBlocks : Obligations.PowerOnBlocks := by
  intro s sa
  refine ⟨_, rfl, fun x hx => List.eq_of_mem_replicate hx, List.length_replicate, fun x hx => List.eq_of_mem_replicate hx,
    List.length_replicate, ?_⟩
  simp [State.powerOn, Asp.atReset, Rate.atReset, Tracker.atReset, Context.atReset, Field.atReset, Line.atReset, KeyTracker.atReset,
    CueUnit.atReset]

/-- R134: no shift is the ratio code 16384. -/
theorem ratioCode_zero : ratioCode 0 = 16384 := by decide +kernel

theorem planOff_inRange : planOff.InRange := by simp [planOff, Plan.InRange, amountInRange]

/-- Table 3.5: the plans of the power-on library lie in their ranges. -/
theorem plansAtReset_inRange : ∀ p ∈ plansAtReset, p.InRange := by
  simp [plansAtReset, planAtReset, planOff, Plan.InRange, amountInRange]

theorem Voice.atReset_plan_inRange (slot : Fin 16) {plans : List Plan} (h : ∀ p ∈ plans, p.InRange) :
    (Voice.atReset slot plans).res.plan.InRange := by
  simp only [Voice.atReset, List.getD_eq_getElem?_getD]
  cases e : plans[slot.val]? with
  | none => exact planOff_inRange
  | some p => exact h p (List.mem_of_getElem? e)

/-- A property of every voice fresh from reset holds of all four voices at power-on. -/
theorem voicesAtReset_all {Q : Voice → Prop} {plans : List Plan} (h : ∀ slot, Q (.atReset slot plans)) : (voicesAtReset plans).All Q :=
  ⟨h 0, h 1, h 4, h 5⟩

theorem State.powerOn_targetsInRange (sa : BitVec 2) : (State.powerOn sa).TargetsInRange :=
  ⟨⟨plansAtReset_inRange, voicesAtReset_all fun slot => ⟨Voice.atReset_plan_inRange slot plansAtReset_inRange, by simp [Voice.atReset]⟩⟩,
    ⟨trivial, by simp [State.powerOn, Due.nothing]⟩,
    voicesAtReset_all fun slot => by simp [Voice.TargetInRange, Voice.atReset, RenderRecord.atReset]⟩

/-- Tables 3.1 and 4.1: the fields name slot 0 alone, which is non-empty; no chord, queue entry, match or cue step names a slot. -/
theorem State.powerOn_slotsFilled (sa : BitVec 2) : (State.powerOn sa).SlotsFilled := by
  simp [State.SlotsFilled, State.powerOn, Tables.ChordFilled, Tables.scaleFilled, Tables.atReset, scalesAtReset, Context.atReset,
    Field.atReset, cueStepEmpty]

/-- R110: the context copy at power-on is the context that would be published, and every voice is enabled. -/
theorem State.powerOn_copyCurrent (sa : BitVec 2) : (State.powerOn sa).CopyCurrent := by
  have enabled : ∀ i : Fin 4, true = switchSet 0xaf#8 (.enable i) := by decide
  refine ⟨rfl, fun i => ?_⟩
  match i with
  | 0 => exact enabled 0
  | 1 => exact enabled 1
  | 2 => exact enabled 2
  | 3 => exact enabled 3

/-- Settles O60: each invariant is read off the power-on state. -/
theorem resetMeetsEveryInvariant : Obligations.ResetMeetsEveryInvariant := by
  intro sa s
  refine ⟨?buffers, ⟨List.length_replicate, List.length_replicate⟩, accBounded_zero, ?cursor, State.powerOn_targetsInRange sa, ?shifts,
    ?fades, ?glides, ?silenced, ?sound, ?pins, State.powerOn_copyCurrent sa, State.powerOn_slotsFilled sa, State.powerOn_outputAgrees sa,
    ?settings, ?decider⟩
  case buffers => simp [s, State.BuffersBounded, State.powerOn, Line.atReset]
  case cursor => simp [s, State.CursorInside, State.powerOn, Tables.atReset, CueUnit.atReset]
  case shifts =>
    exact voicesAtReset_all fun slot => by
      simp [Voice.atReset, RenderRecord.ShiftsInRange, RenderRecord.atReset, shiftInRange, ratioCode_zero]
  case fades => exact voicesAtReset_all fun slot => rfl
  case glides => exact voicesAtReset_all fun slot => by simp [RenderRecord.GlideBetween, Voice.atReset, RenderRecord.atReset]
  case silenced => exact fun _ => voicesAtReset_all fun slot => ⟨rfl, rfl, rfl⟩
  case sound =>
    exact voicesAtReset_all fun slot => by simp [State.soundCondition, Voice.atReset, RenderRecord.atReset]
  case pins => simp [s, State.PinsOwned, State.powerOn, Context.atReset, Field.PinOwned, Field.atReset]
  case settings =>
    simp [s, State.SettingsInRange, State.powerOn, TrackerSettings.InRange, Tracker.atReset, Line.atReset, KeyTracker.atReset,
      FaultMonitor.atReset, Ports.atReset]
  case decider => simp [s, State.DeciderInRange, State.powerOn, TrackerSettings.InRange, Tracker.atReset, DeciderState.CountsInRange]

end Sys2Proof.Machine


/-! ## States with nothing due -/

namespace Sys2Proof.Machine

/-- Two states are one when each part of them is. -/
@[ext] theorem State.ext {s t : State} (asp : s.asp = t.asp) (rate : s.rate = t.rate) (tracker : s.tracker = t.tracker)
    (decider : s.decider = t.decider) (tables : s.tables = t.tables) (ctx : s.ctx = t.ctx) (line : s.line = t.line)
    (matcher : s.matcher = t.matcher) (queue : s.queue = t.queue) (key : s.key = t.key) (copy : s.copy = t.copy)
    (voices : s.voices = t.voices) (renderer : s.renderer = t.renderer) (cue : s.cue = t.cue) (ports : s.ports = t.ports)
    (fault : s.fault = t.fault) (due : s.due = t.due) (draws : s.draws = t.draws) (pending : s.pending = t.pending) : s = t := by
  cases s; cases t; simp_all

/-! ### A completion that is not due changes nothing (log entry 1) -/

theorem State.takeLearn_not_due {s : State} (h : s.due.learn = false) : s.takeLearn = s := by simp [State.takeLearn, h]
theorem State.takeHowl_not_due {s : State} (h : s.due.howl = false) : s.takeHowl = s := by simp [State.takeHowl, h]
theorem State.takeRecovery_not_due {s : State} (h : s.due.recovery = false) : s.takeRecovery = s := by simp [State.takeRecovery, h]
theorem State.takeNoteStart_not_due {s : State} (h : s.due.note = none) : s.takeNoteStart = s := by
  simp [State.takeNoteStart, Due.start, h]
theorem State.takeNoteOff_not_due {s : State} (h : s.due.note = none) : s.takeNoteOff = s := by simp [State.takeNoteOff, h]
theorem State.takeDwell_not_due {s : State} (h : s.due.dwell = false) : s.takeDwell = s := by simp [State.takeDwell, h]
theorem State.takeSilence_not_due {s : State} (h : s.due.silence = false) : s.takeSilence = s := by simp [State.takeSilence, h]
theorem State.takeFadeStep_not_due {s : State} (h : s.due.fadeStep = false) : s.takeFadeStep = s := by simp [State.takeFadeStep, h]
theorem State.takeRender_not_due {s : State} (h : s.due.render = false) : s.takeRender = s := by simp [State.takeRender, h]
theorem State.takeProposal_not_due {s : State} (h : s.due.proposal = none) : s.takeProposal = s := by simp [State.takeProposal, h]

/-! ### With nothing due the completions leave the state as it is -/

section
variable {s : State} (h : s.Quiet)
include h

theorem State.Quiet.completeFirst : s.completeFirst = s := by
  rw [State.Quiet] at h
  rw [State.completeFirst, takeLearn_not_due (by rw [h]; rfl), takeHowl_not_due (by rw [h]; rfl), takeRecovery_not_due (by rw [h]; rfl),
    takeNoteStart_not_due (by rw [h]; rfl), takeNoteOff_not_due (by rw [h]; rfl)]

theorem State.Quiet.completeLast : s.completeLast = s := by
  rw [State.Quiet] at h
  rw [State.completeLast, takeDwell_not_due (by rw [h]; rfl), takeSilence_not_due (by rw [h]; rfl), takeFadeStep_not_due (by rw [h]; rfl),
    takeRender_not_due (by rw [h]; rfl)]

theorem State.Quiet.takeProposal : s.takeProposal = s := by
  rw [State.Quiet] at h
  rw [takeProposal_not_due (by rw [h]; rfl)]

theorem State.Quiet.evaluated : s.evaluated = s := by
  rw [State.evaluated, h.completeFirst, s.takeEvaluation_not_due (by rw [h]; rfl), h.completeLast]

theorem State.Quiet.complete : s.complete = s := by rw [State.complete, h.evaluated, h.takeProposal]

theorem State.Quiet.completeButDecay : s.completeButDecay = s := by
  rw [State.completeButDecay, h.completeFirst, h.completeLast, h.takeProposal]

end

end Sys2Proof.Machine

/-! ## Frames and the dry path (R1 to R3) -/

namespace Sys2Proof.Machine

/-- A run of frame syncs, each with its input word and its bit clocks. -/
def State.afterFrames (s : State) (l : List (SlotWord × Nat)) : State := l.foldl (fun u f => u.complete.nextFrame f.1 f.2) s

/-- R3: each frame sync takes the dry delay line's oldest sample out and puts the frame's sample in. -/
theorem State.afterFrames_dry (s : State) (l : List (SlotWord × Nat)) (h : s.asp.dry ≠ []) :
    (s.afterFrames l).asp.dry = (s.asp.dry ++ l.map fun f => inputSample f.1 f.2).drop l.length := by
  induction l generalizing s with
  | nil => simp [State.afterFrames]
  | cons f l ih =>
    obtain ⟨x, rest, e⟩ := List.exists_cons_of_ne_nil h
    have first : (s.complete.nextFrame f.1 f.2).asp.dry = rest ++ [inputSample f.1 f.2] := by simp [shiftIn, e]
    have later := ih (s.complete.nextFrame f.1 f.2) (by rw [first]; simp)
    rw [first] at later
    simpa [State.afterFrames, e] using later

/-- R3: output slot 0 carries the oldest sample of the dry delay line. -/
theorem State.nextFrame_adout_head (s : State) (w : SlotWord) (b : Nat) :
    (s.nextFrame w b).asp.adout.map (fun f => f.slots.head?) = some (some (slotOf (s.asp.dry.headD 0#24))) := by
  simp [State.nextFrame, State.moveSamples, State.outFrame, State.beginFrame]

/-- Settles O6: after `frames`, the sample of `old` and the 127 of `later`, the oldest entry of the 128 is that of `old`. -/
theorem dryPathDelays128Frames : Obligations.DryPathDelays128Frames := by
  intro s frames old later word bits full len run x
  refine ⟨_, rfl, ?_⟩
  have ran : (frames ++ old :: later).foldl run s = s.afterFrames (frames ++ old :: later) := rfl
  have oldest : (s.afterFrames (frames ++ old :: later)).asp.dry.head? = some x := by
    rw [State.afterFrames_dry _ _ (by intro e; simp [e] at full), List.head?_drop, List.getElem?_append_right (by simp; omega)]
    have place : (frames ++ old :: later).length - s.asp.dry.length = frames.length := by simp; omega
    rw [place]
    simp [x, inputSample]
  rw [ran, State.nextFrame_adout_head, (State.complete_frame _).1, List.headD_eq_head?_getD, oldest]
  rfl

/-! ### The output frame (R2, R139 to R142) -/

theorem openQuotient_spec (a : Int) {d : Nat} (hd : 0 < d) (up : Bool) :
    (d : Int) * (openQuotient a d up - 1) < a ∧ a < d * (openQuotient a d up + 1) := by
  have div := Int.mul_ediv_add_emod a d
  have low := Int.emod_nonneg a (by omega : (d : Int) ≠ 0)
  have high := Int.emod_lt_of_pos a (by omega : (0 : Int) < d)
  simp only [openQuotient]
  generalize a % (d : Int) = r at *
  generalize a / (d : Int) = q at *
  subst div
  have e1 : (d : Int) * (q - 1) = d * q - d := by ring
  have e2 : (d : Int) * (q + 1) = d * q + d := by ring
  have e3 : (d : Int) * (q + 1 - 1) = d * q := by ring
  have e4 : (d : Int) * (q + 1 + 1) = d * q + 2 * d := by ring
  split
  · omega
  · split <;> omega

theorem saturate_eq (a : Int) : saturate a = if a < -8388608 then -8388608 else if 8388607 < a then 8388607 else a := by
  unfold saturate
  split
  · omega
  · split <;> omega

/-- R141: where no rule silences the voice, its sample is the shifted sample times its gain over 2048, rounded one way or the
other and saturated. -/
theorem State.voiceSample_cases (s : State) (i : Fin 4) :
    let r := (s.voices.get i).ren
    let g := s.voiceGain r
    (s.silenced = true ∨ g = 0 → s.voiceSample i = 0) ∧
      (¬(s.silenced = true ∨ g = 0) → r.mute = true → s.voiceSample i = 0) ∧
      (¬(s.silenced = true ∨ g = 0) → r.mute = false →
        s.voiceSample i = saturate (openQuotient (s.shiftedSample i * g) 2048 (Config.roundsUp s.draws i.val))) := by
  intro r g
  refine ⟨fun h => ?_, fun _ h => ?_, fun h m => ?_⟩ <;> simp only [State.voiceSample]
  · rw [if_pos (by tauto)]
  · rw [if_pos (by tauto)]
  · rw [if_neg (by simp only [not_or] at *; exact ⟨h.1, h.2, by simpa [r] using m⟩)]

/-- R136: what the taking of a voice's grain boundary can do: a pending shift is adopted where a boundary is due. -/
theorem RenderRecord.takeBoundary_cases (r : RenderRecord) :
    (∃ d, r.boundaryDue = true ∧ r.pending = some d ∧
        r.takeBoundary = { r with boundaryDue := false, applied := d, ratio := ratioCode d, pending := none }) ∨
      ((r.boundaryDue = false ∨ r.pending = none) ∧ r.takeBoundary = { r with boundaryDue := false }) := by
  cases due : r.boundaryDue with
  | false =>
    refine .inr ⟨.inl rfl, ?_⟩
    simp only [RenderRecord.takeBoundary, due]
    cases r; cases due; rfl
  | true => cases pending : r.pending <;> simp [RenderRecord.takeBoundary, RenderRecord.adoptShift, due, pending]

@[simp] theorem RenderRecord.takeBoundary_frame (r : RenderRecord) :
    r.takeBoundary.state = r.state ∧ r.takeBoundary.fade = r.fade ∧ r.takeBoundary.fadeOld = r.fadeOld ∧ r.takeBoundary.timer = r.timer := by
  obtain ⟨d, _, _, e⟩ | ⟨_, e⟩ := r.takeBoundary_cases <;> simp [e]

theorem RenderRecord.takeBoundary_ratio (r : RenderRecord) :
    r.takeBoundary.ratio = match r.boundaryDue, r.pending with
      | true, some d => ratioCode d
      | _, _ => r.ratio := by
  obtain ⟨d, due, pending, e⟩ | ⟨none_adopted, e⟩ := r.takeBoundary_cases
  · simp [e, due, pending]
  · rw [e]
    split
    next due pending => simp [due, pending] at none_adopted
    next => rfl

/-- R7, R11: what a frame sync makes of the rate records. -/
theorem Rate.atFrame_eq (r : Rate) :
    r.atFrame = if r.state = .unlocked ∨ r.state = .lost then
        { r with state := .acquiring, acquisition := [], acquisitionClass := none, run := some 0 }
      else { r with run := r.run.map (· + 1) } := by
  simp only [Rate.atFrame]
  split <;> simp_all

/-- R1, R4, R139: the state in which the output frame is formed: the grain boundaries of the last frame taken, and the
frame begun. -/
def State.forming (s : State) : State := s.takeBoundaries.beginFrame

theorem State.forming_voice (s : State) (i : Fin 4) :
    s.forming.voices.get i = { s.voices.get i with ren := (s.voices.get i).ren.takeBoundary } := by
  simp [State.forming, State.takeBoundaries]

theorem State.forming_gain (s : State) (i : Fin 4) :
    s.forming.voiceGain (s.forming.voices.get i).ren = (s.voices.get i).ren.gain (min 256 (s.renderer.ramp + 1)) := by
  rw [State.forming_voice]
  simp [State.voiceGain, State.forming, State.beginFrame, RenderRecord.gain]

theorem State.forming_silenced (s : State) : s.forming.silenced = s.silenced := by simp [State.silenced, State.forming]

theorem State.forming_mute (s : State) (i : Fin 4) :
    (s.forming.voices.get i).ren.mute = ((s.voices.get i).ren.state == .idle && !Config.idleRamps) := by
  rw [State.forming_voice]
  simp [RenderRecord.mute]

theorem State.nextFrame_vocal (s : State) (w : SlotWord) (b : Nat) :
    (s.nextFrame w b).asp.vocal = s.forming.shifterFrame :: s.asp.vocal := by
  simp [State.nextFrame, State.forming, State.beginFrame]

/-- R1 to R3, R141: the audio port after a frame. -/
theorem State.nextFrame_asp (s : State) (w : SlotWord) (b : Nat) :
    (s.nextFrame w b).asp =
      { frames := s.asp.frames + 1, absenceRunning := true, dry := shiftIn s.asp.dry (inputSample w b), adout := some (s.forming.outFrame b)
        vocal := s.forming.shifterFrame :: s.asp.vocal } := by
  simp [State.nextFrame, State.forming, State.moveSamples, State.beginFrame]

/-- R141: a shifter that has taken zeros alone gives zero, and otherwise its sample is open. -/
theorem State.forming_shifted (s : State) (i : Fin 4) :
    let vocal := s.forming.shifterFrame :: s.asp.vocal
    s.forming.shiftedSample i = if ∀ f ∈ vocal, f.vocal = 0#24 then 0
      else Config.shiftedSample s.draws i.val (vocal.map fun f => (f.vocal, f.ratios.get i, f.timers.get i)) := by
  intro vocal
  have taken : s.forming.taken i = vocal.map fun f => (f.vocal, f.ratios.get i, f.timers.get i) := by
    simp [State.taken, vocal, State.forming, State.beginFrame]
  have draws : s.forming.draws = s.draws := by simp [State.forming]
  simp only [State.shiftedSample, taken, draws, List.all_map, List.all_eq_true, Function.comp_apply, beq_iff_eq]

/-- R142: the mix is the weighted sum over 128, rounded one way or the other and saturated. -/
theorem State.forming_mix (s : State) :
    let part := fun i : Fin 4 => s.forming.voiceSample i * ((s.voices.get i).res.plan.level : Int)
    s.forming.mixSample = saturate (openQuotient (part 0 + part 1 + part 2 + part 3) 128 (Config.roundsUp s.forming.draws 4)) := by
  simp [State.mixSample, State.forming_voice]

/-- Settles O5: the frame is formed in the state that `State.forming` names. -/
theorem frameSyncMovesSamples : Obligations.FrameSyncMovesSamples := by
  intro s word bits quiet x n saturated quotient ratio level
  have sat : ∀ a, saturate a = saturated a := saturate_eq
  have ran : exec (.frameSync word bits) s = .next (s.nextFrame word bits) := by
    show Host.Outcome.next _ = _
    rw [quiet.complete]
  refine ⟨_, s.forming.shifterFrame, s.forming.voiceSample, s.forming.mixSample, ran, ?vocal, ?shifters, ?asp, ?samples, ?mix, ?tracker,
    ?rate, ?resolver, ?frame⟩
  case vocal => simp [State.shifterFrame, State.forming, State.beginFrame]
  case shifters =>
    intro i
    simp only [State.shifterFrame, Quad.map_get, State.forming_voice, RenderRecord.takeBoundary_frame, and_true]
    exact RenderRecord.takeBoundary_ratio _
  case asp => rw [State.nextFrame_asp]; simp [State.outFrame, sampleSlot, slotOf, shiftIn, inputSample, x, State.forming, State.beginFrame]
  case samples =>
    intro i r gain taken shifted
    have hgain : s.forming.voiceGain (s.forming.voices.get i).ren = gain := s.forming_gain i
    have hshifted : s.forming.shiftedSample i = shifted := by
      simp only [shifted, taken, State.nextFrame_vocal]
      exact s.forming_shifted i
    have hsilenced : s.forming.silenced = true ↔ s.fault.output = .bypass ∨ s.ctx.hush ≠ none := by
      rw [State.forming_silenced]
      simp [State.silenced, Option.isSome_iff_ne_none]
    obtain ⟨zero, muted, sounds⟩ := s.forming.voiceSample_cases i
    rw [hgain, hsilenced] at zero muted sounds
    rw [State.forming_mute] at muted sounds
    rw [hshifted, sat] at sounds
    have heard (loud : s.fault.output ≠ .bypass) (free : s.ctx.hush = none) (some_gain : gain ≠ 0) :
        ¬((s.fault.output = .bypass ∨ s.ctx.hush ≠ none) ∨ gain = 0) := by simp [loud, free, some_gain]
    refine ⟨fun h => zero (by rwa [or_assoc]), fun loud free some_gain => ?_, fun loud free moving => ?_⟩
    · cases mute : (r.state == .idle && !Config.idleRamps)
      · exact .inr ⟨_, openQuotient_spec _ (d := 2048) (by omega) _, sounds (heard loud free some_gain) mute⟩
      · exact .inl ⟨by simpa using (Bool.and_eq_true_iff.mp mute).1, muted (heard loud free some_gain) mute⟩
    · by_cases some_gain : gain = 0
      · exact ⟨0, by simp [quotient, some_gain], by rw [zero (.inr some_gain)]; simp [saturated]⟩
      · exact ⟨_, openQuotient_spec _ (d := 2048) (by omega) _, sounds (heard loud free some_gain) (by simp [show (s.voices.get i).ren.state ≠ .idle from moving])⟩
  case mix => exact ⟨_, openQuotient_spec _ (d := 128) (by omega) _, by rw [s.forming_mix, sat]⟩
  case tracker => simp [State.nextFrame, State.moveSamples, shiftIn, inputSample, x]
  case rate =>
    rw [← Rate.atFrame_eq]
    simp [State.nextFrame, State.beginFrame]
  case resolver => intro i; simp [State.nextFrame, State.takeBoundaries]
  case frame => ext1 <;> simp

end Sys2Proof.Machine


/-! ## Measurements, frame absences and rate loss (R4, R5, R8 to R14) -/

namespace Sys2Proof.Machine

/-- R5: the state in which a completed measurement is handled: the next measurement has begun, with `n` frames counted. -/
def State.measuring (s : State) (n : Nat) : State := { s with rate := { s.rate with run := some n } }

@[simp] theorem State.measuring_frame (s : State) (n : Nat) :
    (s.measuring n).asp = s.asp ∧ (s.measuring n).tracker = s.tracker ∧ (s.measuring n).decider = s.decider ∧
    (s.measuring n).tables = s.tables ∧ (s.measuring n).ctx = s.ctx ∧ (s.measuring n).line = s.line ∧ (s.measuring n).matcher = s.matcher ∧
    (s.measuring n).queue = s.queue ∧ (s.measuring n).key = s.key ∧ (s.measuring n).copy = s.copy ∧ (s.measuring n).voices = s.voices ∧
    (s.measuring n).renderer = s.renderer ∧ (s.measuring n).cue = s.cue ∧ (s.measuring n).ports = s.ports ∧ (s.measuring n).fault = s.fault ∧
    (s.measuring n).due = s.due ∧ (s.measuring n).draws = s.draws ∧ (s.measuring n).pending = s.pending := by
  simp [State.measuring]

/-- R5: with nothing due and 256 frames counted a measurement is handled. -/
theorem State.Quiet.exec_measurement {s : State} (h : s.Quiet) {n : Nat} (run : s.rate.run = some n) (full : 256 ≤ n) (m : Nat) (a : Analysis)
    (o : RenderOrder) :
    exec (.measurement m a o) s =
      let u := (s.measuring (n - 256)).measure m
      .next (if u.2 then u.1.hop a o else u.1) := by
  have counted : s.rate.runComplete = some (n - 256) := by simp [Rate.runComplete, run, full]
  show Host.Outcome.next (s.complete.measurement m a o) = _
  rw [h.complete, State.measurement, counted]
  rfl

/-- R12: a measurement that issues a hop. -/
theorem State.Quiet.exec_measurement_hop {s : State} (h : s.Quiet) {n : Nat} (run : s.rate.run = some n) (full : 256 ≤ n) {m : Nat}
    (a : Analysis) (o : RenderOrder) {u : State} (e : (s.measuring (n - 256)).measure m = (u, true)) :
    exec (.measurement m a o) s = .next (u.hop a o) := by
  rw [h.exec_measurement run full, e]
  rfl

/-- R12: a measurement that issues no hop. -/
theorem State.Quiet.exec_measurement_alone {s : State} (h : s.Quiet) {n : Nat} (run : s.rate.run = some n) (full : 256 ≤ n) {m : Nat}
    (a : Analysis) (o : RenderOrder) {u : State} (e : (s.measuring (n - 256)).measure m = (u, false)) :
    exec (.measurement m a o) s = .next u := by
  rw [h.exec_measurement run full, e]
  rfl

/-- R4: with nothing due a frame absence acts at once. -/
theorem State.Quiet.exec_frameAbsence {s : State} (h : s.Quiet) : exec .frameAbsence s = .next s.absence := by
  show Host.Outcome.next s.complete.absence = _
  rw [h.complete]

/-- R3, R4, R16, R141: the delay line, the history and the shifters cleared, and the absence timer stopped. -/
def State.cleared (s : State) : State :=
  { s with
    asp := { s.asp with absenceRunning := false, dry := dryZero, adout := none, vocal := [] }
    tracker := { s.tracker with history := historyZero } }

theorem State.absence_running {s : State} (h : s.asp.absenceRunning = true) : s.absence = s.cleared.rateAbsence := by
  simp [State.absence, h, State.cleared]

/-- R10: a frame absence outside LOCKED. -/
theorem State.rateAbsence_unlocked (s : State) (h : s.rate.state ≠ .locked) :
    s.rateAbsence = { s with rate := if s.rate.state = .acquiring then
        { s.rate with state := if s.rate.causeRate = true then .lost else .unlocked, acquisition := [], acquisitionClass := none, run := none }
      else s.rate } := by
  simp only [State.rateAbsence]
  split
  next e => exact absurd e h
  all_goals simp [*]

/-- R11: a frame absence in LOCKED. -/
theorem State.rateAbsence_locked {s : State} (h : s.rate.state = .locked) : s.rateAbsence = s.rateLoss := by simp [State.rateAbsence, h]

/-- Settles O8. -/
theorem frameAbsenceClearsTheLine : Obligations.FrameAbsenceClearsTheLine := by
  intro s quiet
  rw [quiet.exec_frameAbsence]
  refine ⟨fun stopped => by simp [State.absence, stopped], fun running unlocked => ?_, fun running locked => ⟨_, rfl, ?_⟩⟩
  · rw [State.absence_running running, State.rateAbsence_unlocked s.cleared unlocked]
    rfl
  · rw [State.absence_running running, State.rateAbsence_locked (s := s.cleared) locked]
    simp only [State.rateLoss_rate, State.rateLoss_frame, State.rateLoss_history]
    exact ⟨rfl, rfl, rfl, rfl⟩

/-! ### Lists of four measurements -/

theorem joinList_eq {l : List Nat} (h : l.length ≤ 4) (m : Nat) : joinList l m = if l.length = 4 then l.tail ++ [m] else l ++ [m] := by
  simp only [joinList]
  split
  next four =>
    obtain ⟨x, rest, rfl⟩ := List.exists_cons_of_length_eq_add_one four
    simp [show rest.length = 3 by simpa using four]
  next fewer => simp [show l.length - 3 = 0 by omega]

/-- R8, R14: the test of agreement says that there are four entries and that every two lie within 64. -/
theorem agrees_iff (l : List Nat) : agrees l = true ↔ l.length = 4 ∧ ∀ x ∈ l, ∀ y ∈ l, x ≤ y + 64 := by
  by_cases four : l.length = 4
  · match l, four with
    | [a, b, c, d], _ =>
      simp only [agrees, List.length_cons, List.length_nil, List.foldl_cons, List.foldl_nil, List.headD_cons, List.mem_cons,
        List.not_mem_nil, or_false, forall_eq_or_imp, forall_eq]
      simp
      omega
  · simp [agrees, four]

theorem meanOf_eq (l : List Nat) : meanOf l = l.sum / 4 := by rw [meanOf, List.sum_eq_foldl]

/-- R9: the lock window: the class of a measurement is one that the locked class admits. -/
theorem Rate.inLock_iff (r : Rate) (m : Nat) :
    r.inLock m = true ↔ r.classOf m ≠ none ∧
      (r.mode = .auto → r.lockedClass = some .k48 ∨ r.lockedClass = some .k44 → r.classOf m = r.lockedClass) := by
  simp only [Rate.inLock]
  split
  next auto k => simp [auto, k]; intro e; simp [e]
  next auto k => simp [auto, k]; intro e; simp [e]
  next other48 other44 =>
    rw [Option.isSome_iff_ne_none]
    refine ⟨fun h => ⟨h, fun auto k => ?_⟩, fun h => h.1⟩
    rcases k with k | k
    · exact (other48 auto k).elim
    · exact (other44 auto k).elim

/-! ### What a hop leaves: the key tracker's count, and the flags (R12, R101) -/

@[simp] theorem State.report_counter (s : State) (a : Analysis) : (s.report a).key.counter = s.key.counter := by
  simp only [State.report, State.howlReport, State.followReport, KeyTracker.afterReport]
  split <;> simp

@[simp] theorem State.hop_counter (s : State) (a : Analysis) (o : RenderOrder) : (s.hop a o).key.counter = s.key.counter + 1 := by
  cases o <;> simp [State.hop, State.hopRendering, State.hopCounts, KeyTracker.atHop]

@[simp] theorem State.howlSilent_flags (s : State) : s.howlSilent.fault.flags = s.fault.flags := by
  simp only [State.howlSilent, State.causeClears]; (repeat' split) <;> rfl

@[simp] theorem State.report_flags (s : State) (a : Analysis) : (s.report a).fault.flags = s.fault.flags := by
  simp only [State.report, State.howlReport, FaultMonitor.howlReport, State.decideReport]
  (repeat' split) <;> simp [State.learnReport]

/-- R179: a hop sets no flag. -/
@[simp] theorem State.hop_flag (s : State) (a : Analysis) (o : RenderOrder) (f : Flag) : (s.hop a o).flag f = s.flag f := by
  have counted : s.recoveryHop.fault.flags = s.fault.flags := by
    simp only [State.recoveryHop, FaultMonitor.atHop]; split <;> rfl
  cases o <;> simp [State.flag, State.hop, State.hopRendering, counted]

/-! ### A measurement in LOCKED (R9, R14) -/

theorem State.measure_inside {s : State} (h : s.rate.state = .locked) {m : Nat} (inside : s.rate.inLock m = true) :
    s.measure m =
      ({ s with rate := ((s.rate.accept m).remeasured m true).1 }.raiseIf ((s.rate.accept m).remeasured m true).2 .rateLock, true) := by
  simp [State.measure, h, State.measureLocked, inside]

theorem State.measure_outside {s : State} (h : s.rate.state = .locked) {m : Nat} (outside : s.rate.inLock m = false)
    (few : s.rate.outCount < 3) :
    s.measure m = ({ s with rate := (Rate.remeasured { s.rate with outCount := s.rate.outCount + 1 } m false).1 }, true) := by
  simp [State.measure, h, State.measureLocked, outside, few]

theorem State.measure_fourth {s : State} (h : s.rate.state = .locked) {m : Nat} (outside : s.rate.inLock m = false)
    (many : 3 ≤ s.rate.outCount) : s.measure m = (s.rateLoss, false) := by
  simp [State.measure, h, State.measureLocked, outside, Nat.not_lt.mpr (Nat.succ_le_succ many)]

theorem Rate.accept_eq (r : Rate) (m : Nat) :
    r.accept m = { r with outCount := 0, lockedClass := r.classOf m, nrate := if r.method = .track then m else r.nrate } := by
  cases h : r.method <;> simp [Rate.accept, h]

theorem Rate.remeasured_none {r : Rate} (h : r.remeasure = none) (m : Nat) (b : Bool) : r.remeasured m b = (r, false) := by
  simp [Rate.remeasured, h]

/-- R14: a remeasure whose list agrees ends. -/
theorem Rate.remeasured_agrees {r : Rate} {l : List Nat} (h : r.remeasure = some l) {m : Nat} (e : agrees (joinList l m) = true) :
    r.remeasured m true =
      ({ r with remeasure := none, nrate := if r.method = .hold then (joinList l m).sum / 4 else r.nrate }, true) := by
  cases hm : r.method <;> simp [Rate.remeasured, h, e, hm, meanOf_eq]

theorem Rate.remeasured_disagrees {r : Rate} {l : List Nat} (h : r.remeasure = some l) {m : Nat} (e : agrees (joinList l m) = false) :
    r.remeasured m true = ({ r with remeasure := some (joinList l m) }, false) := by
  simp [Rate.remeasured, h, e]

theorem Rate.remeasured_outside {r : Rate} {l : List Nat} (h : r.remeasure = some l) (m : Nat) :
    r.remeasured m false = ({ r with remeasure := some [] }, false) := by
  simp [Rate.remeasured, h, agrees]

/-- Settles O9: the handling of a measurement in LOCKED is that of the rate records, and the hop leaves those. -/
theorem lockedJudgesMeasurements : Obligations.LockedJudgesMeasurements := by
  constructor
  · intro s m a o n quiet locked run full none_running inside
    have window : s.rate.inLock m = true ↔ inside := Rate.inLock_iff _ m
    refine ⟨fun h => ?_, fun h few => ?_⟩
    · have accepted : ((s.measuring (n - 256)).rate.accept m).remeasure = none := none_running
      refine ⟨_, quiet.exec_measurement_hop run full a o (State.measure_inside (s := s.measuring _) locked (window.mpr h)), ?_⟩
      simp only [State.hop_counter, State.hop_frame, State.raiseIf_frame, Rate.remeasured_none accepted]
      exact ⟨rfl, Rate.accept_eq _ m⟩
    · have outside : s.rate.inLock m = false := by simpa using mt window.mp h
      refine ⟨_, quiet.exec_measurement_hop run full a o (State.measure_outside (s := s.measuring _) locked outside few), ?_⟩
      simp only [State.hop_counter, State.hop_frame]
      exact ⟨rfl, by rw [Rate.remeasured_none (by exact none_running)]; rfl⟩
  · intro s m a o n l quiet locked run full running short list agree
    have joined : joinList l m = list := joinList_eq short m
    have agreed : agrees (joinList l m) = true ↔ agree := by rw [joined]; exact agrees_iff list
    cases judged : s.rate.inLock m with
    | true =>
      have accepted : ((s.measuring (n - 256)).rate.accept m).remeasure = some l := running
      refine ⟨_, quiet.exec_measurement_hop run full a o (State.measure_inside (s := s.measuring _) locked judged),
        fun _ yes => ?_, fun _ no => ?_, by simp⟩
      · simp only [State.hop_counter, State.hop_frame, State.hop_flag, Rate.remeasured_agrees accepted (agreed.mpr yes), joined]
        refine ⟨rfl, by simp [State.flag_raise], locked, rfl, ?_⟩
        cases method : s.rate.method <;> simp [State.measuring, Rate.accept, method]
      · have stands : agrees (joinList l m) = false := by simpa using mt agreed.mp no
        simp only [State.hop_counter, State.hop_frame, State.hop_flag, Rate.remeasured_disagrees accepted stands, joined]
        refine ⟨rfl, rfl, locked, rfl, ?_⟩
        cases method : s.rate.method <;> simp [State.measuring, Rate.accept, method]
    | false =>
      by_cases few : s.rate.outCount < 3
      · refine ⟨_, quiet.exec_measurement_hop run full a o (State.measure_outside (s := s.measuring _) locked judged few), by simp, by simp,
          fun _ _ => ?_⟩
        simp only [State.hop_counter, State.hop_frame]
        rw [Rate.remeasured_outside (by exact running)]
        exact ⟨rfl, locked, rfl, rfl⟩
      · exact ⟨_, quiet.exec_measurement run full m a o, by simp, by simp, fun _ h => absurd h few⟩

/-! ### A measurement in ACQUIRING (R8, Table 1.9) -/

/-- R8: the acquisition list and its class after a measurement that has the class `c`. -/
theorem Rate.acquire_in_class {r : Rate} {m : Nat} {c : RateClass} (hc : r.classOf m = some c) :
    r.acquire m = { r with
      acquisition := if r.acquisition ≠ [] ∧ r.acquisitionClass = some c then joinList r.acquisition m else [m]
      acquisitionClass := some c } := by
  simp only [Rate.acquire, hc]
  split
  next same => rw [← same.2]
  next => rfl

theorem Rate.acquire_out {r : Rate} {m : Nat} (hc : r.classOf m = none) :
    r.acquire m = { r with acquisition := [], acquisitionClass := none } := by
  simp [Rate.acquire, hc]

theorem State.measure_unagreed {s : State} (h : s.rate.state = .acquiring) {m : Nat} (no : agrees (s.rate.acquire m).acquisition = false) :
    s.measure m = ({ s with rate := s.rate.acquire m }, false) := by
  simp [State.measure, h, State.measureAcquiring, no]

/-- R8, R176: the state after the measurement `m` has made the rate monitor lock, before its hop. -/
def State.lockedOn (s : State) (m : Nat) : State :=
  (State.causeClears { s with rate := (s.rate.acquire m).lock m } .rate).raise .rateLock

theorem State.measure_lock {s : State} (h : s.rate.state = .acquiring) {m : Nat} (yes : agrees (s.rate.acquire m).acquisition = true) :
    s.measure m = (s.lockedOn m, true) := by
  simp [State.measure, h, State.measureAcquiring, yes, State.lockedOn]

theorem State.lockedOn_fault (s : State) (m : Nat) :
    (s.lockedOn m).fault.output = (if s.fault.output = .degraded .rate then .recovering else s.fault.output) ∧
      (s.lockedOn m).fault.recovery = if s.fault.output = .degraded .rate then 0 else s.fault.recovery := by
  simp only [State.lockedOn, State.raise_output, State.raise_recovery, State.causeClears]
  split <;> simp

theorem Rate.lock_eq (r : Rate) (m : Nat) :
    r.lock m = { r with
      state := .locked, lockedClass := r.acquisitionClass, outCount := 0
      nrate := if r.method = .track then m else r.acquisition.sum / 4
      acquisition := [], acquisitionClass := none, causeRate := false } := by
  cases h : r.method <;> simp [Rate.lock, h, meanOf_eq]

/-- R173: where cause HOWL is not what the output state names, an entry to SILENT leaves output state and recovery counter. -/
theorem State.howlSilent_output {s : State} (h : s.fault.output ≠ .degraded .howl) :
    s.howlSilent.fault.output = s.fault.output ∧ s.howlSilent.fault.recovery = s.fault.recovery := by
  simp only [State.howlSilent, State.causeClears]
  (repeat' split) <;> simp_all

theorem State.report_output {s : State} (a : Analysis) (h : s.fault.output ≠ .degraded .howl) :
    (s.report a).fault.output = s.fault.output ∧ (s.report a).fault.recovery = s.fault.recovery := by
  have decided : ∀ r, ((s.learnReport r).decideReport r).fault.output = s.fault.output ∧
      ((s.learnReport r).decideReport r).fault.recovery = s.fault.recovery := by
    intro r
    simp only [State.decideReport]
    split
    · exact State.howlSilent_output (by simpa using h)
    · simp
  obtain ⟨output, recovery⟩ := decided (s.hopReport a)
  simp only [State.report, State.howlReport, FaultMonitor.howlReport]
  (repeat' split) <;> simp [output, recovery]

/-- R176: a hop counts in RECOVERING, and moves an output state that does not name HOWL in no other way. -/
theorem State.hop_output {s : State} (a : Analysis) (o : RenderOrder) (h : s.fault.output ≠ .degraded .howl) :
    (s.hop a o).fault.output = s.fault.output ∧
      (s.hop a o).fault.recovery = if s.fault.output = .recovering then s.fault.recovery + 1 else s.fault.recovery := by
  have counted : s.recoveryHop.fault.output = s.fault.output ∧
      s.recoveryHop.fault.recovery = if s.fault.output = .recovering then s.fault.recovery + 1 else s.fault.recovery := by
    simp only [State.recoveryHop, FaultMonitor.atHop]
    split <;> simp
  have reported : ∀ t : State, t.fault = s.recoveryHop.fault →
      (t.report a).fault.output = s.fault.output ∧ (t.report a).fault.recovery = s.recoveryHop.fault.recovery := by
    intro t e
    obtain ⟨output, recovery⟩ := State.report_output (s := t) a (by rwa [e, counted.1])
    rw [output, recovery, e, counted.1]
    exact ⟨rfl, rfl⟩
  rw [← counted.2]
  cases o
  case first => simpa [State.hop, State.hopRendering] using reported s.recoveryHop.fadeStep.hopWork (by simp)
  all_goals simpa [State.hop, State.hopRendering] using reported s.recoveryHop rfl

theorem Rate.classOf_auto {r : Rate} (h : r.mode = .auto) (m : Nat) :
    r.classOf m = if 64880 ≤ m ∧ m ≤ 66192 then some .k48 else if 70620 ≤ m ∧ m ≤ 72046 then some .k44 else none := by
  simp [Rate.classOf, h]

theorem Rate.classOf_manual {r : Rate} (h : r.mode = .manual) (m : Nat) :
    r.classOf m = if r.windowMin ≤ m ∧ m ≤ r.windowMax then some .manual else none := by
  simp [Rate.classOf, h]

/-- Table 1.9: the classes at their boundaries. -/
theorem Rate.classOf_table (r : Rate) (m : Nat) :
    (r.mode = .auto → 64880 ≤ m → m ≤ 66192 → r.classOf m = some .k48) ∧
    (r.mode = .auto → 70620 ≤ m → m ≤ 72046 → r.classOf m = some .k44) ∧
    (r.mode = .auto → (m < 64880 ∨ (66192 < m ∧ m < 70620) ∨ 72046 < m) → r.classOf m = none) ∧
    (r.mode = .manual → r.windowMin ≤ m → m ≤ r.windowMax → r.classOf m = some .manual) ∧
    (r.mode = .manual → (m < r.windowMin ∨ r.windowMax < m) → r.classOf m = none) := by
  refine ⟨fun auto low high => ?_, fun auto low high => ?_, fun auto out => ?_, fun manual low high => ?_, fun manual out => ?_⟩
  · rw [Rate.classOf_auto auto, if_pos ⟨low, high⟩]
  · rw [Rate.classOf_auto auto, if_neg (by omega), if_pos ⟨low, high⟩]
  · rw [Rate.classOf_auto auto, if_neg (by omega), if_neg (by omega)]
  · rw [Rate.classOf_manual manual, if_pos ⟨low, high⟩]
  · rw [Rate.classOf_manual manual, if_neg (by omega)]

/-- Settles O10: the list that `Rate.acquire` leaves is the statement's, and its agreement decides. -/
theorem acquiringTakesMeasurements : Obligations.AcquiringTakesMeasurements := by
  refine ⟨?_, Rate.classOf_table⟩
  intro s m a o n quiet acquiring run full short same list agree
  have taken {c : RateClass} (hc : s.rate.classOf m = some c) :
      (s.measuring (n - 256)).rate.acquire m =
        { s.rate with run := some (n - 256), acquisition := list, acquisitionClass := s.rate.classOf m } := by
    rw [Rate.acquire_in_class (r := (s.measuring (n - 256)).rate) (c := c) hc, hc]
    simp only [list, same, hc, ← joinList_eq short m]
    rfl
  refine ⟨fun out => ?_, fun inside no => ?_, fun inside yes => ?_⟩
  · have emptied := Rate.acquire_out (r := (s.measuring (n - 256)).rate) out
    rw [quiet.exec_measurement_alone run full a o (State.measure_unagreed (s := s.measuring _) acquiring (by rw [emptied]; rfl)), emptied]
    rfl
  · obtain ⟨c, hc⟩ := Option.ne_none_iff_exists'.mp inside
    have stands : agrees list = false := by simpa using mt (agrees_iff list).mp no
    rw [quiet.exec_measurement_alone run full a o (State.measure_unagreed (s := s.measuring _) acquiring (by rw [taken hc]; exact stands)),
      taken hc]
    rfl
  · obtain ⟨c, hc⟩ := Option.ne_none_iff_exists'.mp inside
    have agreed : agrees list = true := (agrees_iff list).mpr yes
    refine ⟨_, quiet.exec_measurement_hop run full a o (State.measure_lock (s := s.measuring _) acquiring (by rw [taken hc]; exact agreed)), ?_⟩
    obtain ⟨output, recovery⟩ := State.lockedOn_fault (s.measuring (n - 256)) m
    simp only [State.measuring_frame] at output recovery
    refine ⟨by simp [State.flag_raise, State.lockedOn], by simp [State.lockedOn],
      by simp [taken hc, Rate.lock_eq, State.lockedOn], fun named _ => ?_, fun other => ?_⟩
    · rw [if_pos named] at output recovery
      obtain ⟨hop_output, hop_recovery⟩ := State.hop_output a o (s := (s.measuring (n - 256)).lockedOn m) (by simp [output])
      exact ⟨hop_output.trans output, by rw [hop_recovery, output, recovery]; rfl⟩
    · have stands : s.fault.output ≠ .degraded .rate ∧ s.fault.output ≠ .degraded .howl := by rcases other with h | h <;> simp [h]
      rw [if_neg stands.1] at output
      exact (State.hop_output a o (by rw [output]; exact stands.2)).1.trans output

/-! ### Rate loss (R11, R26, R36, R135, R137, R140, R143, R173, R176) -/

/-- R173: what an entry of the decider to SILENT makes of the fault monitor. -/
theorem State.howlSilent_fault (s : State) :
    s.howlSilent.fault =
      let recovers := s.fault.causeHowl = true ∧ s.fault.output = .degraded .howl
      { s.fault with
        causeHowl := false, howlCounter := 0, dev0 := none
        output := if recovers then .recovering else s.fault.output
        recovery := if recovers then 0 else s.fault.recovery } := by
  simp only [State.howlSilent, State.causeClears]
  cases s.fault.causeHowl with
  | false => simp
  | true => by_cases h : s.fault.output = .degraded .howl <;> simp [h]

/-- R176: the three ways in which a cause's appearance can go. -/
theorem State.causeAppears_cases (s : State) (k : Cause) :
    (s.fault.output = .run ∧ s.causeAppears k = State.raise { s with fault := { s.fault with output := .degraded k } } .fault) ∨
      ((s.fault.output = .degraded k ∨ s.fault.output = .bypass) ∧ s.causeAppears k = s) ∨
      ((s.fault.output = .recovering ∨ ∃ j, j ≠ k ∧ s.fault.output = .degraded j) ∧ s.causeAppears k = s.enterBypass) := by
  simp only [State.causeAppears]
  cases s.fault.output with
  | run => simp
  | degraded j => by_cases e : j = k <;> simp [e]
  | recovering => simp
  | bypass => simp

theorem State.soundCondition_of_output {s : State} (h : s.fault.output ≠ .run) (r : RenderRecord) : s.soundCondition r = false := by
  simp [State.soundCondition, h]

/-- R137: a sound condition that fails turns a voice that sounds to fall. -/
theorem RenderRecord.retest_false (r : RenderRecord) :
    r.retest false = if r.state = .rising ∨ r.state = .sounding then { r with state := if r.fade = 0 then .idle else .falling } else r := by
  cases h : r.state <;> simp [RenderRecord.retest, h]

/-- R11, R26, R36: the records of the rate monitor, the decider, the howl check and the learn at a rate loss, before the
fault monitor takes cause RATE. -/
def State.lossHeard (s : State) : State := (State.forceSilent { s with rate := s.rate.lose }).failLearn

theorem State.rateLoss_eq (s : State) : s.rateLoss = (s.lossHeard.causeAppears .rate).retest := rfl

theorem State.lossHeard_output (s : State) :
    s.lossHeard.fault.output = if s.fault.causeHowl = true ∧ s.fault.output = .degraded .howl then .recovering else s.fault.output := by
  obtain ⟨e, -⟩ := FaultMonitor.of_unflagged (State.failLearn_unflagged (State.forceSilent { s with rate := s.rate.lose }))
  rw [State.lossHeard, e, State.forceSilent, State.howlSilent_fault]

theorem State.lossHeard_howl (s : State) :
    s.lossHeard.fault.causeHowl = false ∧ s.lossHeard.fault.howlCounter = 0 ∧ s.lossHeard.fault.dev0 = none := by
  obtain ⟨-, cause, counter, dev, -⟩ := FaultMonitor.of_unflagged (State.failLearn_unflagged (State.forceSilent { s with rate := s.rate.lose }))
  rw [State.lossHeard, cause, counter, dev, State.forceSilent, State.howlSilent_fault]
  exact ⟨rfl, rfl, rfl⟩

theorem State.lossHeard_learnFail (s : State) : s.lossHeard.flag .learnFail = (s.flag .learnFail || s.tracker.learn.isSome) := by
  simp only [State.lossHeard, State.failLearn]
  cases h : s.tracker.learn <;> simp [State.flag, State.forceSilent, h, Flag.mask, Flag.bit]

/-- What a rate loss leaves of the fault monitor beside the output state, and of the blocks it silences. -/
theorem State.rateLoss_blocks (s : State) :
    s.rateLoss.decider = ⟨.silent, 0⟩ ∧ s.rateLoss.tracker = { s.tracker with learn := none } ∧
      s.rateLoss.renderer = { s.renderer with grainMode := .fixed, grainLength := 2048 } := by
  simp [State.rateLoss, State.forceSilent, State.failLearn]

theorem State.rateLoss_howl (s : State) :
    s.rateLoss.fault.causeHowl = false ∧ s.rateLoss.fault.howlCounter = 0 ∧ s.rateLoss.fault.dev0 = none ∧
      s.rateLoss.flag .learnFail = (s.flag .learnFail || s.tracker.learn.isSome) := by
  obtain ⟨cause, counter, dev⟩ := s.lossHeard_howl
  have learn := s.lossHeard_learnFail
  rw [State.rateLoss_eq]
  obtain ⟨-, e⟩ | ⟨-, e⟩ | ⟨-, e⟩ := s.lossHeard.causeAppears_cases .rate <;> rw [e]
  · exact ⟨cause, counter, dev, by rw [← learn]; simp [State.flag, State.raise, Flag.mask, Flag.bit]⟩
  · exact ⟨cause, counter, dev, learn⟩
  · exact ⟨cause, counter, dev, by rw [← learn]; simp [State.flag, State.enterBypass, State.raise, Flag.mask, Flag.bit]⟩

theorem State.lossHeard_voices (s : State) : s.lossHeard.voices = s.voices := by simp [State.lossHeard, State.forceSilent]

/-- R137, R143, R176: a rate loss in RUN: DEGRADED by RATE, and every voice that sounds falls. -/
theorem State.rateLoss_run {s : State} (h : s.fault.output = .run) :
    s.rateLoss.fault.output = .degraded .rate ∧ s.rateLoss.flag .fault = true ∧
      ∀ i, (s.rateLoss.voices.get i) = { s.voices.get i with ren := (s.voices.get i).ren.retest false } := by
  have heard : s.lossHeard.fault.output = .run := by rw [State.lossHeard_output]; simp [h]
  obtain ⟨-, e⟩ | ⟨other, -⟩ | ⟨other, -⟩ := s.lossHeard.causeAppears_cases .rate
  · rw [State.rateLoss_eq, e]
    refine ⟨rfl, by simp [State.flag, Flag.mask, Flag.bit], fun i => ?_⟩
    rw [State.retest_get, State.soundCondition_of_output (by simp)]
    simp [State.lossHeard_voices]
  · simp [heard] at other
  · simp [heard] at other

/-- R140, R176: a rate loss in RECOVERING, or in DEGRADED by HOWL: BYPASS, and every voice is cut. -/
theorem State.rateLoss_bypass {s : State} (h : s.fault.output = .recovering ∨ s.fault.output = .degraded .howl) :
    s.rateLoss.fault.output = .bypass ∧ s.rateLoss.flag .bypass = true ∧
      ∀ i, (s.rateLoss.voices.get i) = { s.voices.get i with ren := (s.voices.get i).ren.cut } := by
  have heard : s.lossHeard.fault.output = .recovering ∨ s.lossHeard.fault.output = .degraded .howl := by
    rw [State.lossHeard_output]
    split
    · exact .inl rfl
    · exact h
  obtain ⟨other, -⟩ | ⟨other, -⟩ | ⟨-, e⟩ := s.lossHeard.causeAppears_cases .rate
  · rcases heard with heard | heard <;> simp [heard] at other
  · rcases heard with heard | heard <;> simp [heard] at other
  · rw [State.rateLoss_eq, e]
    refine ⟨by simp, by simp [State.flag, State.enterBypass, Flag.mask, Flag.bit], fun i => ?_⟩
    rw [State.retest_get, State.soundCondition_of_output (by simp), RenderRecord.retest_false]
    simp [State.enterBypass, State.cutVoices, State.lossHeard_voices]

theorem State.rateLoss_stays {s : State} (h : s.fault.output = .bypass) : s.rateLoss.fault.output = .bypass := by
  have heard : s.lossHeard.fault.output = .bypass := by rw [State.lossHeard_output]; simp [h]
  obtain ⟨other, -⟩ | ⟨-, e⟩ | ⟨other, -⟩ := s.lossHeard.causeAppears_cases .rate
  · simp [heard] at other
  · rw [State.rateLoss_eq, e]; simpa using heard
  · simp [heard] at other

/-- R143: a rate loss leaves what the resolver holds of each voice. -/
theorem State.rateLoss_resolver (s : State) (i : Fin 4) : (s.rateLoss.voices.get i).res = (s.voices.get i).res := by
  rw [State.rateLoss_eq, State.retest_get, ← s.lossHeard_voices]
  obtain ⟨-, e⟩ | ⟨-, e⟩ | ⟨-, e⟩ := s.lossHeard.causeAppears_cases .rate <;> rw [e] <;> simp [State.enterBypass, State.cutVoices]

/-- The state with another audio port, analysis history and count of frames: the parts in which the two entries to LOST
differ. -/
def State.withAudio (s : State) (asp : Asp) (history : List Sample) (run : Option Nat) : State :=
  { s with asp := asp, tracker := { s.tracker with history := history }, rate := { s.rate with run := run } }

/-- R11: each of the two entries to LOST is a rate loss. -/
theorem State.Quiet.exec_rateLoss {s : State} (h : s.Quiet) (locked : s.rate.state = .locked) {c : Instr}
    (entry : (c = .frameAbsence ∧ s.asp.absenceRunning = true) ∨
      ∃ m a o n, c = .measurement m a o ∧ s.rate.run = some n ∧ 256 ≤ n ∧ s.rate.inLock m = false ∧ s.rate.outCount = 3) :
    ∃ asp history run, exec c s = .next (s.withAudio asp history run).rateLoss := by
  obtain ⟨rfl, running⟩ | ⟨m, a, o, n, rfl, run, full, outside, three⟩ := entry
  · refine ⟨s.cleared.asp, historyZero, s.rate.run, ?_⟩
    rw [h.exec_frameAbsence, State.absence_running running, State.rateAbsence_locked (s := s.cleared) locked]
    rfl
  · refine ⟨s.asp, s.tracker.history, some (n - 256), ?_⟩
    rw [h.exec_measurement_alone run full a o (State.measure_fourth (s := s.measuring _) locked outside three.ge)]
    rfl

/-- Settles O11. -/
theorem rateLossEntersLost : Obligations.RateLossEntersLost := by
  intro s c quiet locked entry
  obtain ⟨asp, history, run, ran⟩ := quiet.exec_rateLoss locked entry
  obtain ⟨decider, tracker, renderer⟩ := (s.withAudio asp history run).rateLoss_blocks
  obtain ⟨cause, counter, dev, learn⟩ := (s.withAudio asp history run).rateLoss_howl
  refine ⟨_, ran, by rw [State.rateLoss_rate]; rfl, by simp [State.withAudio], decider, by rw [tracker], by rw [tracker]; rfl, learn,
    cause, counter, dev, renderer, fun running => ?_, fun bypasses => ?_, State.rateLoss_stays (s := s.withAudio asp history run),
    State.rateLoss_resolver _, ?_⟩
  · obtain ⟨output, flag, voices⟩ := State.rateLoss_run (s := s.withAudio asp history run) running
    exact ⟨output, flag, fun i => by rw [voices i, RenderRecord.retest_false]; rfl⟩
  · obtain ⟨output, flag, voices⟩ := State.rateLoss_bypass (s := s.withAudio asp history run) bypasses
    exact ⟨output, flag, fun i => by rw [voices i]; rfl⟩
  · simpa [State.Quiet, State.withAudio] using quiet

end Sys2Proof.Machine


/-! ## Hops (R12, R16, R17, R20, R24, R86, R88, R99, R101, R131, R133, R135, R139, R154, R173, R176) -/

namespace Sys2Proof.Machine

/-! ### The measurement that issues a hop -/

/-- R8, R9, R12: a measurement that issues a hop has moved the rate monitor and the fault monitor alone. -/
theorem State.measure_of_hop {s : State} {m : Nat} (h : (s.measure m).2 = true) :
    (s.measure m).1 = { s with rate := (s.measure m).1.rate, fault := (s.measure m).1.fault } := by
  cases state : s.rate.state with
  | unlocked => simp [State.measure, state] at h
  | lost => simp [State.measure, state] at h
  | acquiring =>
    cases agree : agrees (s.rate.acquire m).acquisition with
    | false => simp [State.measure_unagreed state agree] at h
    | true =>
      rw [State.measure_lock state agree]
      ext1 <;> simp [State.lockedOn]
  | locked =>
    cases inside : s.rate.inLock m with
    | true =>
      rw [State.measure_inside state inside]
      ext1 <;> simp
    | false =>
      by_cases few : s.rate.outCount < 3
      · rw [State.measure_outside state inside few]
      · simp [State.measure_fourth state inside (Nat.le_of_not_lt few)] at h

/-- R12: with nothing due, a measurement that issues a hop: the hop follows the measurement's handling. -/
theorem State.Quiet.exec_hop {s : State} (h : s.Quiet) {n : Nat} (run : s.rate.run = some n) (full : 256 ≤ n) {m : Nat} (a : Analysis)
    (o : RenderOrder) (hops : ((s.measuring (n - 256)).measure m).2 = true) :
    exec (.measurement m a o) s = .next (((s.measuring (n - 256)).measure m).1.hop a o) :=
  h.exec_measurement_hop run full a o (Prod.ext rfl hops)

/-! ### A report, block by block -/

/-- R20, R30 to R34: what the decider makes of a hop's report. -/
def State.decided (s : State) (a : Analysis) : Decider × Option NoteEvent := deciderReport s.tracker.settings s.decider (s.hopReport a)

@[simp] theorem State.learnReport_settings (s : State) (r : Report) : (s.learnReport r).tracker.settings = s.tracker.settings := rfl

@[simp] theorem State.decideReport_decider (s : State) (r : Report) :
    (s.decideReport r).decider = (deciderReport s.tracker.settings s.decider r).1 := by
  simp only [State.decideReport]
  split <;> simp

@[simp] theorem State.report_decider (s : State) (a : Analysis) : (s.report a).decider = (s.decided a).1 := by
  simp [State.report, State.decided]

@[simp] theorem State.report_tracker (s : State) (a : Analysis) :
    (s.report a).tracker = { s.tracker with learn := s.tracker.learn.map fun x => x.observe (s.hopReport a).level } := by
  simp [State.report, State.learnReport]

@[simp] theorem State.report_key (s : State) (a : Analysis) :
    (s.report a).key = s.key.afterReport (s.hopReport a) (s.decided a).1.state := by
  have followed : (s.report a).key = s.key.afterReport (s.hopReport a) (s.report a).decider.state := by
    simp [State.report, State.followReport]
  rw [followed, State.report_decider]

@[simp] theorem State.report_renderer (s : State) (a : Analysis) :
    (s.report a).renderer = s.renderer.afterReport (s.hopReport a) (s.decided a).1.state.note := by
  have followed : (s.report a).renderer = s.renderer.afterReport (s.hopReport a) (s.report a).decider.state.note := by
    simp [State.report, State.followReport]
  rw [followed, State.report_decider]

/-- R173: the fault monitor and the declaration that a report brings: first an entry to SILENT, then the howl check. -/
def State.howlHeard (s : State) (a : Analysis) : FaultMonitor × Bool :=
  (if (s.decided a).1.state = .silent ∧ s.decider.state ≠ .silent then s.howlSilent.fault else s.fault).howlReport
    (s.decided a).1.state.heldNote.isSome (s.hopReport a).confidence (s.hopReport a).level s.anySounding (s.decided a).1.dev

theorem State.decideReport_fault (s : State) (r : Report) :
    (s.decideReport r).fault =
      if (deciderReport s.tracker.settings s.decider r).1.state = .silent ∧ s.decider.state ≠ .silent then s.howlSilent.fault
      else s.fault := by
  simp only [State.decideReport]
  split <;> simp [State.howlSilent_fault]

theorem State.decideReport_due (s : State) (r : Report) :
    (s.decideReport r).due = { s.due with note := (deciderReport s.tracker.settings s.decider r).2 } := by
  simp only [State.decideReport]
  split <;> simp

theorem State.report_fault (s : State) (a : Analysis) : (s.report a).fault = (s.howlHeard a).1 := by
  simp [State.report, State.howlReport, State.howlHeard, State.decideReport_fault, State.decided, State.howlSilent_fault,
    State.anySounding]

theorem State.report_due (s : State) (a : Analysis) :
    (s.report a).due = { s.due with
      learn := (s.report a).tracker.learn.any fun x => decide (64 ≤ x.count)
      note := (s.decided a).2, howl := (s.howlHeard a).2 } := by
  simp [State.report, State.howlReport, State.howlHeard, State.decideReport_fault, State.decideReport_due, State.decided,
    State.howlSilent_fault, State.anySounding, State.learnReport]

/-! ### A hop, block by block -/

/-- R131, R139: the state that the report of a hop finds: the recovery counted, and where the rendering comes first the fade step
and the hop work taken. -/
def State.beforeReport (s : State) : RenderOrder → State
  | .first => s.recoveryHop.fadeStep.hopWork
  | .afterReport => s.recoveryHop
  | .last => s.recoveryHop

@[simp] theorem State.beforeReport_frame (s : State) (o : RenderOrder) :
    (s.beforeReport o).asp = s.asp ∧ (s.beforeReport o).rate = s.rate ∧ (s.beforeReport o).tracker = s.tracker ∧
    (s.beforeReport o).decider = s.decider ∧ (s.beforeReport o).tables = s.tables ∧ (s.beforeReport o).ctx = s.ctx ∧
    (s.beforeReport o).line = s.line ∧ (s.beforeReport o).matcher = s.matcher ∧ (s.beforeReport o).queue = s.queue ∧
    (s.beforeReport o).key = s.key ∧ (s.beforeReport o).copy = s.copy ∧ (s.beforeReport o).cue = s.cue ∧
    (s.beforeReport o).ports = s.ports ∧ (s.beforeReport o).fault = s.recoveryHop.fault ∧ (s.beforeReport o).due = s.recoveryHop.due ∧
    (s.beforeReport o).draws = s.draws ∧ (s.beforeReport o).pending = s.pending := by
  cases o <;> simp [State.beforeReport]

/-- The report that a hop makes reads the settings, Nrate and the history, which stand until it is made. -/
@[simp] theorem State.beforeReport_hopReport (s : State) (o : RenderOrder) (a : Analysis) : (s.beforeReport o).hopReport a = s.hopReport a := by
  simp [State.hopReport, State.hopLevel]

@[simp] theorem State.beforeReport_decided (s : State) (o : RenderOrder) (a : Analysis) : (s.beforeReport o).decided a = s.decided a := by
  simp [State.decided]

/-- R12: the parts that a hop leaves as its report has left them. -/
theorem State.hop_reported (s : State) (a : Analysis) (o : RenderOrder) :
    (s.hop a o).decider = ((s.beforeReport o).report a).decider ∧ (s.hop a o).tracker = ((s.beforeReport o).report a).tracker ∧
      (s.hop a o).fault = ((s.beforeReport o).report a).fault ∧
      (s.hop a o).key = { ((s.beforeReport o).report a).key with counter := s.key.counter + 1 } := by
  have counter := State.report_counter (s.beforeReport o) a
  cases o <;> simp_all [State.hop, State.hopRendering, State.hopCounts, State.beforeReport, KeyTracker.atHop]

/-- R135, R139: a report leaves the fade-step count and the ramp. -/
@[simp] theorem Renderer.afterReport_counts (c : Renderer) (r : Report) (note : Option Nat) :
    (c.afterReport r note).fadeCount = c.fadeCount ∧ (c.afterReport r note).ramp = c.ramp := by
  simp only [Renderer.afterReport]
  split <;> simp

@[simp] theorem Renderer.afterReport_mode (c : Renderer) (r : Report) (note : Option Nat) (n m : Nat) :
    Renderer.afterReport { c with fadeCount := n, ramp := m } r note = { c.afterReport r note with fadeCount := n, ramp := m } := by
  simp only [Renderer.afterReport]
  split <;> simp

@[simp] theorem State.fadeStep_renderer (s : State) : s.fadeStep.renderer = { s.renderer with fadeCount := 0, ramp := 0 } := rfl

/-- R135, R139: the grain records after a hop. -/
theorem State.hop_renderer (s : State) (a : Analysis) (o : RenderOrder) :
    (s.hop a o).renderer = { s.renderer.afterReport (s.hopReport a) (s.decided a).1.state.note with fadeCount := 0, ramp := 0 } := by
  rw [← s.beforeReport_hopReport o, ← s.beforeReport_decided o]
  cases o <;> simp [State.hop, State.hopRendering, State.beforeReport]

theorem State.hop_lines (s : State) (a : Analysis) (o : RenderOrder) :
    (s.hop a o).line = s.line.atHop ∧ (s.hop a o).cue = s.cue.atHop.1 := by
  simp [State.hop, State.hopCounts]

/-- R99, R101: a report leaves the decay period. -/
@[simp] theorem KeyTracker.afterReport_decay (k : KeyTracker) (r : Report) (d : DeciderState) :
    (k.afterReport r d).decay = k.decay ∧ (k.afterReport r d).counter = k.counter ∧ (k.afterReport r d).evaluation = k.evaluation := by
  simp only [KeyTracker.afterReport]
  split <;> simp

/-- R88, R101, R154: the completions that a hop brings. -/
theorem State.hop_due (s : State) (a : Analysis) (o : RenderOrder) :
    (s.hop a o).due = { ((s.beforeReport o).report a).due with
      decay := decide (s.key.decay ≤ s.key.counter + 1), dwell := s.cue.atHop.2
      silence := decide (s.line.atHop.derived ≠ s.line.atHop.cond)
      render := s.due.render || decide (o = .last) } := by
  cases o <;> simp [State.hop, State.hopRendering, State.hopCounts, State.beforeReport, KeyTracker.atHop, State.report_due, State.recoveryHop]

end Sys2Proof.Machine


/-! ## The statements about hops (R12, R16, R17, R20, R24, R86, R88, R99, R101, R131, R133, R135, R139, R154, R173, R176) -/

namespace Sys2Proof.Machine

/-! ### Reports -/

@[simp] theorem makeReport_level (t : TrackerSettings) (nrate level : Nat) (a : Analysis) : (makeReport t nrate level a).level = level := by
  simp only [makeReport]
  split <;> rfl

/-- R18, R19: a voiced report has a period. -/
theorem makeReport_voiced (t : TrackerSettings) (nrate level : Nat) (a : Analysis) (h : (makeReport t nrate level a).voiced = true) :
    ∃ p, (makeReport t nrate level a).period = some p := by
  unfold makeReport at h ⊢
  cases e : searchResult a with
  | none => simp [e] at h
  | some x => exact ⟨x.1, rfl⟩

/-- R135: the grains are PERIOD while a voiced report finds a note reported. -/
theorem Renderer.afterReport_period {c : Renderer} {r : Report} {note : Option Nat} {p : Nat} (v : r.voiced = true) (n : note ≠ none)
    (hp : r.period = some p) : c.afterReport r note = { c with grainMode := .period, grainLength := p } := by
  obtain ⟨k, rfl⟩ := Option.ne_none_iff_exists'.mp n
  simp [Renderer.afterReport, v, hp]

theorem Renderer.afterReport_fixed {c : Renderer} {r : Report} {note : Option Nat} (h : r.voiced = false ∨ note = none) :
    c.afterReport r note = { c with grainMode := .fixed, grainLength := 2048 } := by
  rcases h with h | h <;> simp [Renderer.afterReport, h]

/-- R99: the accumulators after a report. -/
theorem KeyTracker.afterReport_acc (k : KeyTracker) (r : Report) (d : DeciderState) :
    (k.afterReport r d).acc = if r.voiced = true then
        match d with
        | .held N => integrate k.acc (N % 12) r.confidence
        | _ => k.acc
      else k.acc := by
  cases v : r.voiced <;> cases d <;> simp [KeyTracker.afterReport, v, DeciderState.heldNote]

/-! ### Counts -/

/-- R86: the silence counter at a hop. -/
theorem Line.atHop_eq (l : Line) :
    l.atHop = { l with silence := if l.settings.enable = true then min 4095 (l.silence + 1) else l.silence } := by
  simp only [Line.atHop]
  split <;> rfl

/-- R88: the condition that a line's settings, marks and silence counter give. -/
theorem Line.derived_eq (l : Line) :
    l.derived = if l.settings.enable = false then .off else if l.broken = true then .broken
      else if l.settings.lost ≠ 0 ∧ 8 * l.settings.lost ≤ l.silence then .lost
      else if l.settings.stale ≠ 0 ∧ 8 * l.settings.stale ≤ l.silence then .stale
      else if l.frameSeen = true then .active else .listening := by
  simp [Line.derived]

/-- R154: a dwell in progress counts a hop. -/
theorem CueUnit.atHop_dwell {c : CueUnit} {h : Nat} (e : c.entered = .dwell h) (running : c.running = true) (cursor : c.cursor ≠ none) :
    c.atHop = ({ c with counter := c.counter + 1 }, decide (h ≤ c.counter + 1)) := by
  simp [CueUnit.atHop, e, running, Option.isSome_iff_ne_none.mpr cursor]

theorem CueUnit.atHop_still {c : CueUnit} (e : (∀ h, c.entered ≠ .dwell h) ∨ c.running = false ∨ c.cursor = none) :
    c.atHop = (c, false) := by
  cases entered : c.entered with
  | manual => simp [CueUnit.atHop, entered]
  | onsets n => simp [CueUnit.atHop, entered]
  | dwell h =>
    rcases e with e | e | e
    · exact absurd entered (e h)
    all_goals simp [CueUnit.atHop, entered, e]

/-! ### The state that a measurement leaves for its hop -/

/-- R8, R9: a state whose rate monitor and fault monitor a measurement has moved. -/
def State.judged (s : State) (r : Rate) (f : FaultMonitor) : State := { s with rate := r, fault := f }

@[simp] theorem State.judged_frame (s : State) (r : Rate) (f : FaultMonitor) :
    (s.judged r f).asp = s.asp ∧ (s.judged r f).rate = r ∧ (s.judged r f).tracker = s.tracker ∧ (s.judged r f).decider = s.decider ∧
    (s.judged r f).tables = s.tables ∧ (s.judged r f).ctx = s.ctx ∧ (s.judged r f).line = s.line ∧ (s.judged r f).matcher = s.matcher ∧
    (s.judged r f).queue = s.queue ∧ (s.judged r f).key = s.key ∧ (s.judged r f).copy = s.copy ∧ (s.judged r f).voices = s.voices ∧
    (s.judged r f).renderer = s.renderer ∧ (s.judged r f).cue = s.cue ∧ (s.judged r f).ports = s.ports ∧ (s.judged r f).fault = f ∧
    (s.judged r f).due = s.due ∧ (s.judged r f).draws = s.draws ∧ (s.judged r f).pending = s.pending := by
  simp [State.judged]

theorem State.measuring_judged {s : State} {n m : Nat} (h : ((s.measuring n).measure m).2 = true) :
    ∃ r f, ((s.measuring n).measure m).1 = s.judged r f := ⟨_, _, State.measure_of_hop h⟩

theorem State.judged_hopReport (s : State) (r : Rate) (f : FaultMonitor) (a : Analysis) :
    (s.judged r f).hopReport a = makeReport s.tracker.settings r.nrate s.hopLevel a := rfl

/-- R176: a hop's recovery count makes the recovery's end alone due. -/
theorem State.recoveryHop_due (s : State) : s.recoveryHop.due = { s.due with recovery := s.fault.atHop.2 } := rfl

theorem State.judged_decided (s : State) (r : Rate) (f : FaultMonitor) (a : Analysis) :
    (s.judged r f).decided a = deciderReport s.tracker.settings s.decider (makeReport s.tracker.settings r.nrate s.hopLevel a) := rfl

/-- Settles O16: each block of the hop takes the one report, which reads nothing that the rest of the hop moves. -/
theorem hopReachesEveryBlock : Obligations.HopReachesEveryBlock := by
  intro s m a o n quiet run full hops
  obtain ⟨rate, fault, judged⟩ := State.measuring_judged hops
  refine ⟨_, quiet.exec_hop run full a o hops, ?_⟩
  rw [judged]
  intro level r derived
  obtain ⟨hdecider, htracker, -, hkey⟩ := (s.judged rate fault).hop_reported a o
  obtain ⟨hline, hcue⟩ := (s.judged rate fault).hop_lines a o
  have hrenderer := (s.judged rate fault).hop_renderer a o
  have hdue := (s.judged rate fault).hop_due a o
  have nrate : ((s.judged rate fault).hop a o).rate.nrate = rate.nrate := by simp
  have hr : makeReport s.tracker.settings rate.nrate s.hopLevel a = r := by simp only [r, nrate]; rfl
  have heard : r.level = level := makeReport_level _ _ _ _
  have voiced : r.voiced = true → ∃ p, r.period = some p := makeReport_voiced _ _ _ _
  clear_value r
  have silent : derived = s.line.atHop.derived := by
    simp only [derived, hline, Line.derived_eq, Line.atHop_eq, State.judged_frame]
  have line_cond : s.line.atHop.cond = s.line.cond := by rw [Line.atHop_eq]
  have waits : s.due.proposal = none := by rw [quiet]; rfl
  clear_value derived
  simp only [State.report_decider, State.report_tracker, State.report_key, State.report_due, State.beforeReport_decided,
    State.beforeReport_hopReport, State.beforeReport_frame, State.judged_decided, State.judged_hopReport, State.judged_frame, hr,
    heard, State.recoveryHop_due, line_cond, ← silent] at hdecider htracker hkey hrenderer hdue
  rw [hdecider, htracker, hkey, hline, hrenderer, hdue, hcue]
  simp only [State.hop_frame, State.judged_frame, and_true, true_and, KeyTracker.afterReport_decay]
  refine ⟨by rfl, by simp [Option.any_map, LearnRecord.observe], KeyTracker.afterReport_acc _ _ _, ?_, fun p hp v N => by rw [Renderer.afterReport_period v N hp],
    fun h => by rw [Renderer.afterReport_fixed h], Line.atHop_eq _, waits, fun h e running cursor => ?_, fun e => ?_⟩
  · split
    next h =>
      obtain ⟨p, hp⟩ := voiced h.1
      rw [Renderer.afterReport_period h.1 h.2 hp]
    next h => rw [Renderer.afterReport_fixed (by simpa [Classical.or_iff_not_imp_left] using h)]
  · rw [CueUnit.atHop_dwell e running cursor]
    exact ⟨rfl, rfl⟩
  · rw [CueUnit.atHop_still e]
    exact ⟨rfl, rfl⟩

end Sys2Proof.Machine


/-! ## What a hop does to the fault monitor and to the voices (R131, R133, R137 to R139, R173, R176) -/

namespace Sys2Proof.Machine

/-! ### The recovery counter and the howl check -/

/-- R176: the recovery counter at a hop. -/
theorem FaultMonitor.atHop_eq (f : FaultMonitor) :
    f.atHop = (if f.output = .recovering then { f with recovery := f.recovery + 1 } else f,
      decide (f.output = .recovering ∧ 64 ≤ f.recovery + 1)) := by
  simp only [FaultMonitor.atHop]
  split <;> simp_all

/-- R173: the terms of the howl check. -/
theorem howlTerms_iff (f : FaultMonitor) (held : Bool) (confidence level : Nat) (sounding : Bool) (dev : Int) :
    howlTerms f held confidence level sounding dev = true ↔
      held = true ∧ confidence = 15 ∧ 58 ≤ level ∧ sounding = true ∧ ∀ d, f.dev0 = some d → dev - d ≤ 1 ∧ d - dev ≤ 1 := by
  have near (d : Int) : (dev - d).natAbs ≤ 1 ↔ dev - d ≤ 1 ∧ d - dev ≤ 1 := by omega
  cases h : f.dev0 <;> simp [howlTerms, h, near, and_assoc]

section
variable {f : FaultMonitor} {held : Bool} {confidence level : Nat} {sounding : Bool} {dev : Int}

theorem FaultMonitor.howlReport_rises (judged : f.howlEnable = true ∧ f.causeHowl = false)
    (terms : howlTerms f held confidence level sounding dev = true) :
    f.howlReport held confidence level sounding dev =
      ({ f with howlCounter := f.howlCounter + 1, dev0 := if f.howlCounter = 0 then some dev else f.dev0 },
        decide (f.window ≤ f.howlCounter + 1)) := by
  simp [FaultMonitor.howlReport, judged, terms]

theorem FaultMonitor.howlReport_restarts (judged : f.howlEnable = true ∧ f.causeHowl = false)
    (terms : ¬howlTerms f held confidence level sounding dev = true) :
    f.howlReport held confidence level sounding dev = ({ f with howlCounter := 0, dev0 := none }, false) := by
  simp [FaultMonitor.howlReport, judged, terms]

theorem FaultMonitor.howlReport_stands (judged : ¬(f.howlEnable = true ∧ f.causeHowl = false)) :
    f.howlReport held confidence level sounding dev = (f, false) := by
  simp [FaultMonitor.howlReport, judged]

end

/-! ### The voices -/

theorem Quad.any_toList {α : Type} (p : α → Bool) (q : Quad α) : (q.toList.any p) = true ↔ ∃ i, p (q.get i) = true := by
  simp [Quad.toList, Quad.get, Fin.exists_fin_succ]

theorem State.anySounding_iff (s : State) : s.anySounding = true ↔ ∃ i, (s.voices.get i).ren.state = .sounding := by
  rw [State.anySounding, Quad.any_toList]
  simp

/-- R131, R133: the hop work moves no fade. -/
@[simp] theorem RenderRecord.hopWork_state (r : RenderRecord) (follow : Bool) (dev : Int) : (r.hopWork follow dev).state = r.state := by
  simp only [RenderRecord.hopWork, RenderRecord.formShift, RenderRecord.glideStep]
  (repeat' split) <;> rfl

@[simp] theorem State.hopWork_get (s : State) (i : Fin 4) :
    s.hopWork.voices.get i =
      { s.voices.get i with ren := (s.voices.get i).ren.hopWork (s.voices.get i).res.plan.follow s.decider.dev } := Quad.map_get _ _ i

@[simp] theorem State.fadeStep_get (s : State) (i : Fin 4) :
    s.fadeStep.voices.get i = { s.voices.get i with ren := (s.voices.get i).ren.fadeStep } := State.mapRen_get _ _ i

/-- R131, R139: what the rendering of a hop has made of a voice when its sound condition is tested. -/
def State.worked (s : State) (a : Analysis) (o : RenderOrder) (v : Voice) : RenderRecord :=
  match o with
  | .first => v.ren.fadeStep.hopWork v.res.plan.follow s.decider.dev
  | .afterReport => v.ren.fadeStep.hopWork v.res.plan.follow (s.decided a).1.dev
  | .last => v.ren.fadeStep

theorem State.hop_voice (s : State) (a : Analysis) (o : RenderOrder) (i : Fin 4) :
    (s.hop a o).voices.get i =
      { s.voices.get i with ren := (s.worked a o (s.voices.get i)).retest ((s.hop a o).soundCondition (s.worked a o (s.voices.get i))) } := by
  have recovered : s.recoveryHop.decided a = s.decided a := rfl
  cases o with
  | first =>
    have tested : (s.hop a .first).soundCondition = (s.recoveryHop.fadeStep.hopWork.report a).soundCondition := rfl
    rw [tested]
    simp [State.hop, State.hopRendering, State.worked]
  | afterReport =>
    have tested : (s.hop a .afterReport).soundCondition = (s.recoveryHop.report a).fadeStep.hopWork.soundCondition := rfl
    rw [tested]
    simp [State.hop, State.hopRendering, State.worked, recovered]
  | last =>
    have tested : (s.hop a .last).soundCondition = (s.recoveryHop.report a).fadeStep.soundCondition := rfl
    rw [tested]
    simp [State.hop, State.hopRendering, State.worked]

/-- R139, R173: the voices as the howl check finds them. -/
theorem State.beforeReport_sounding (s : State) (o : RenderOrder) :
    (s.beforeReport o).anySounding = true ↔
      ∃ i, (if o = .first then (s.voices.get i).ren.fadeStep else (s.voices.get i).ren).state = .sounding := by
  rw [State.anySounding_iff]
  cases o <;> simp [State.beforeReport]

/-- R138, R139: one fade step, with the ends of the fade written as the statements have them. -/
theorem RenderRecord.fadeStep_eq (x : RenderRecord) :
    x.fadeStep = match x.state with
      | .rising => { x with fadeOld := x.fade, fade := min 8 (x.fade + 2), state := if 6 ≤ x.fade then .sounding else .rising }
      | .falling => { x with fadeOld := x.fade, fade := x.fade - 1, state := if x.fade ≤ 1 then .idle else .falling }
      | _ => { x with fadeOld := x.fade } := by
  have top : min 8 (x.fade + 2) = 8 ↔ 6 ≤ x.fade := by omega
  have bottom : x.fade - 1 = 0 ↔ x.fade ≤ 1 := by omega
  cases h : x.state <;> simp [RenderRecord.fadeStep, h, top, bottom]

theorem DeciderState.heldNote_isSome (d : DeciderState) : d.heldNote.isSome = true ↔ ∃ N, d = .held N := by
  cases d <;> simp [DeciderState.heldNote]

/-- R173: the fault monitor that the howl check of a hop finds. -/
def State.silencedFault (s : State) (a : Analysis) : FaultMonitor :=
  if (s.decided a).1.state = .silent ∧ s.decider.state ≠ .silent then
    { s.fault.atHop.1 with
      causeHowl := false, howlCounter := 0, dev0 := none
      output := if s.fault.atHop.1.causeHowl = true ∧ s.fault.atHop.1.output = .degraded .howl then .recovering else s.fault.atHop.1.output
      recovery := if s.fault.atHop.1.causeHowl = true ∧ s.fault.atHop.1.output = .degraded .howl then 0 else s.fault.atHop.1.recovery }
  else s.fault.atHop.1

theorem State.beforeReport_howlHeard (s : State) (a : Analysis) (o : RenderOrder) :
    (s.beforeReport o).howlHeard a =
      (s.silencedFault a).howlReport (s.decided a).1.state.heldNote.isSome (s.hopReport a).confidence (s.hopReport a).level
        (s.beforeReport o).anySounding (s.decided a).1.dev := by
  have counted : s.recoveryHop.fault = s.fault.atHop.1 := rfl
  simp [State.howlHeard, State.silencedFault, State.howlSilent_fault, counted]

/-- R173: the fault monitor after a hop, and whether the declaration is due. -/
theorem State.hop_howl (s : State) (a : Analysis) (o : RenderOrder) :
    ((s.hop a o).fault, (s.hop a o).due.howl) =
      (s.silencedFault a).howlReport (s.decided a).1.state.heldNote.isSome (s.hopReport a).confidence (s.hopReport a).level
        (s.beforeReport o).anySounding (s.decided a).1.dev := by
  obtain ⟨-, -, fault, -⟩ := s.hop_reported a o
  rw [fault, s.hop_due a o, State.report_fault, State.report_due, ← State.beforeReport_howlHeard]

/-- Settles O17. -/
theorem hopMovesFaultsAndVoices : Obligations.HopMovesFaultsAndVoices := by
  intro s m a o n quiet run full u hops
  obtain ⟨rate, fault, judged⟩ := State.measuring_judged hops
  have hu : u = s.judged rate fault := judged
  refine ⟨_, quiet.exec_hop run full a o hops, ?_⟩
  rw [judged]
  clear_value u
  subst hu
  intro level r faded counted recovers silenced judge sounding terms
  have hfaded : ∀ x : RenderRecord, x.fadeStep = faded x := RenderRecord.fadeStep_eq
  obtain ⟨hdecider, -⟩ := (s.judged rate fault).hop_reported a o
  have hhowl := (s.judged rate fault).hop_howl a o
  have hdue := (s.judged rate fault).hop_due a o
  have hrenderer := (s.judged rate fault).hop_renderer a o
  have nrate : ((s.judged rate fault).hop a o).rate.nrate = rate.nrate := by simp
  have hr : (s.judged rate fault).hopReport a = r := by simp only [r, nrate]; rfl
  have heard : r.level = level := makeReport_level _ _ _ _
  rw [State.report_decider, State.beforeReport_decided] at hdecider
  have hcounted : fault.atHop.1 = counted := by rw [FaultMonitor.atHop_eq]; rfl
  have hsilenced : (s.judged rate fault).silencedFault a = silenced := by
    simp only [silenced, State.silencedFault, hdecider, State.judged_frame, hcounted]; rfl
  have hsounding : ((s.judged rate fault).beforeReport o).anySounding = true ↔ sounding := by
    simp only [State.beforeReport_sounding, hfaded, State.judged_frame]; rfl
  have hterms : howlTerms silenced ((s.judged rate fault).decided a).1.state.heldNote.isSome r.confidence level
      ((s.judged rate fault).beforeReport o).anySounding ((s.judged rate fault).decided a).1.dev = true ↔ terms := by
    simp only [howlTerms_iff, DeciderState.heldNote_isSome, hsounding, terms, hdecider]
  have nothing : s.due.render = false ∧ s.due.fadeStep = false := by rw [quiet]; exact ⟨rfl, rfl⟩
  rw [hsilenced, hr, heard] at hhowl
  clear_value r silenced terms sounding faded
  refine ⟨fun j yes => ?_, fun j no => ?_, fun j => ?_, ?_, by rw [hrenderer], by rw [hrenderer], ?_, ?_, fun i => ?_⟩
  · rw [FaultMonitor.howlReport_rises j (hterms.mpr yes)] at hhowl
    simpa [hdecider] using hhowl
  · rw [FaultMonitor.howlReport_restarts j (mt hterms.mp no)] at hhowl
    simpa using hhowl
  · rw [FaultMonitor.howlReport_stands j] at hhowl
    simpa using hhowl
  · simp [hdue, State.report_due, State.recoveryHop_due, FaultMonitor.atHop_eq]
  · simp [hdue, nothing]
  · simp [hdue, State.report_due, State.recoveryHop_due, nothing]
  · intro v dev worked
    have hworked : (s.judged rate fault).worked a o v = worked := by
      simp only [worked, dev, hdecider]
      cases o <;> simp [State.worked, hfaded]
    rw [State.hop_voice]
    exact ⟨rfl, by rw [← hworked]; rfl⟩

end Sys2Proof.Machine


/-! ## Records through their owning blocks (R13, R14, R21, R106, R165 to R169, R174) -/

namespace Sys2Proof.Machine

/-! ### The command decoder's passage, with nothing due -/

/-- R167 to R169: a record of a command that its source may give: the block's action, and the reply in the source's slot. -/
theorem State.decoded_permitted (s : State) {src : Manual} {c : Cmd} (h : src ∈ c.sources) (body : State → Answer) :
    s.decoded src c body = (body s).1.reply src ⟨c.code, (body s).2.1, (body s).2.2⟩ := by
  simp [State.decoded, h]

/-- R167: a record of a command that its source may not give. -/
theorem State.decoded_notPermitted (s : State) {src : Manual} {c : Cmd} (h : src ∉ c.sources) (body : State → Answer) :
    s.decoded src c body = s.reply src ⟨c.code, .notPermitted, []⟩ := by
  simp [State.decoded, h]

theorem State.Quiet.command {s : State} (h : s.Quiet) (src : Manual) (c : Cmd) (body : State → Answer) :
    s.command src c body = s.decoded src c body := by
  rw [State.command, h.complete]

theorem State.Quiet.commandTracking {s : State} (h : s.Quiet) (src : Manual) (c : Cmd) (body : State → Answer) :
    s.commandTracking src c body = s.decoded src c body := by
  rw [State.commandTracking, h.completeButDecay]

theorem State.Quiet.commandMeeting {s : State} (h : s.Quiet) (src : Manual) (c : Cmd) (body : State → Answer) :
    s.commandMeeting src c body = (s.decoded src c body).takeProposal := by
  rw [State.commandMeeting, State.meeting, h.evaluated]

/-- R167 to R169: with nothing due, a record that its source may give leaves what the block answers. -/
theorem State.Quiet.command_answers {s t : State} (h : s.Quiet) {src : Manual} {c : Cmd} (permitted : src ∈ c.sources) {body : State → Answer}
    {code : ReplyCode} {data : List Byte} (answers : body s = (t, code, data)) : s.command src c body = t.reply src ⟨c.code, code, data⟩ := by
  rw [h.command, State.decoded_permitted s permitted, answers]

theorem State.Quiet.commandTracking_answers {s t : State} (h : s.Quiet) {src : Manual} {c : Cmd} (permitted : src ∈ c.sources)
    {body : State → Answer} {code : ReplyCode} {data : List Byte} (answers : body s = (t, code, data)) :
    s.commandTracking src c body = t.reply src ⟨c.code, code, data⟩ := by
  rw [h.commandTracking, State.decoded_permitted s permitted, answers]

/-! ### Bytes -/

/-- R166: the bytes of a two-byte field, as a number's and as a word's. -/
theorem natBytes_toNat (w : BitVec 16) : natBytes 2 w.toNat = bytes16 w := by
  have high : BitVec.ofNat 8 (w.toNat / 256) = w.extractLsb' 8 8 := by
    apply BitVec.eq_of_toNat_eq; simp [Nat.shiftRight_eq_div_pow]
  have low : BitVec.ofNat 8 w.toNat = w.extractLsb' 0 8 := by
    apply BitVec.eq_of_toNat_eq; simp
  simp [natBytes, bytes16, high, low]

theorem byteOf_toNat (b : Byte) : byteOf b.toNat = b := by simp [byteOf]

/-- R166: how a field with the two codes 0 and 1 is read. -/
theorem twoCodes_eq {α : Type} (x y : α) (b : Byte) :
    (if b = 0#8 then some x else if b = 1#8 then some y else none) = if b.toNat ≤ 1 then some (if b = 0#8 then x else y) else none := by
  have codes : b.toNat ≤ 1 ↔ b = 0#8 ∨ b = 1#8 := by bv_omega
  by_cases zero : b = 0#8 <;> by_cases one : b = 1#8 <;> simp [codes, zero, one]

/-! ### The settings that a record carries -/

/-- R13: the four settings of RATE. -/
theorem readRate_eq (b : RateBytes) :
    readRate b =
      if b.mode.toNat ≤ 1 ∧ b.method.toNat ≤ 1 ∧ 32768 ≤ b.minimum.toNat ∧ b.minimum.toNat < b.maximum.toNat ∧ b.maximum.toNat ≤ 131071 then
        some (if b.mode = 0#8 then .auto else .manual, if b.method = 0#8 then .track else .hold, b.minimum.toNat, b.maximum.toNat)
      else none := by
  simp only [readRate, readRateMode, readRateMethod, twoCodes_eq]
  by_cases mode : b.mode.toNat ≤ 1 <;> by_cases method : b.method.toNat ≤ 1 <;> simp [mode, method]

/-- R106, R107: KEYTRACK with nothing due: no decay event is judged. -/
theorem State.Quiet.answerKeytrack {s : State} (h : s.Quiet) (b : KeytrackBytes) (clear : Bool)
    (ok : 16 ≤ b.decay.toNat ∧ b.decay.toNat ≤ 4096 ∧ b.decay.toNat % 16 = 0 ∧ b.margin.toNat ≤ 63) :
    s.answerKeytrack b clear =
      ({ s with key :=
          let set := { s.key with decay := b.decay.toNat, margin := b.margin.toNat, minTotal := b.minTotal.toNat }
          if clear = true then { set with acc := List.replicate 12 0, counter := 0 } else set },
        .done, bytes16 b.decay ++ [b.margin] ++ bytes16 b.minTotal) := by
  have nothing : s.due = Due.nothing := h
  simp only [State.answerKeytrack, readKeytrack, if_pos ok, natBytes_toNat, byteOf_toNat]
  simp [nothing, Due.nothing]

theorem readOnOff_eq (b : Byte) : readOnOff b = if b.toNat ≤ 1 then some (if b = 0#8 then true else false) else none := twoCodes_eq _ _ b

/-- R174: HOWL with its two fields in range. -/
theorem State.answerHowl_set (s : State) {e : Byte} {w : BitVec 16} {on : Bool} (read : readOnOff e = some on)
    (ok : 64 ≤ w.toNat ∧ w.toNat ≤ 2048 ∧ w.toNat % 64 = 0) :
    s.answerHowl e w =
      ({ s with fault :=
          let f := { s.fault with howlEnable := on, window := w.toNat }
          if on = true then f else { f with howlCounter := 0, dev0 := none } }, .done, e :: bytes16 w) := by
  simp only [State.answerHowl, read, if_pos ok]

theorem State.answerHowl_range (s : State) {e : Byte} {w : BitVec 16}
    (bad : ¬(e.toNat ≤ 1 ∧ 64 ≤ w.toNat ∧ w.toNat ≤ 2048 ∧ w.toNat % 64 = 0)) : s.answerHowl e w = (s, .range, []) := by
  by_cases code : e.toNat ≤ 1
  · simp only [code, true_and] at bad
    simp only [State.answerHowl, readOnOff_eq, if_pos code, if_neg bad]
    rfl
  · simp only [State.answerHowl, readOnOff_eq, if_neg code]
    rfl

/-! ### The answers of the setting commands -/

section
variable (s : State)

theorem State.answerTracker_set {b : TrackerBytes} {t : TrackerSettings} (read : readTracker b = some t) :
    s.answerTracker b = ({ s with tracker := { s.tracker with settings := t } }, .done, []) := by
  simp only [State.answerTracker, read, answer]

theorem State.answerTracker_range {b : TrackerBytes} (read : readTracker b = none) : s.answerTracker b = (s, .range, []) := by
  simp only [State.answerTracker, read, answer]

theorem State.answerRate_set {b : RateBytes} {c : RateMode × RateMethod × Nat × Nat} (read : readRate b = some c) :
    s.answerRate b = ({ s with rate := s.rate.set c }, .done, []) := by
  simp only [State.answerRate, read, answer]

theorem State.answerRate_range {b : RateBytes} (read : readRate b = none) : s.answerRate b = (s, .range, []) := by
  simp only [State.answerRate, read, answer]

theorem State.answerRemeasure_locked {b : RateBytes} {c : RateMode × RateMethod × Nat × Nat} (read : readRate b = some c)
    (locked : s.rate.state = .locked) :
    s.answerRemeasure b = ({ s with rate := { s.rate.set c with remeasure := some [] } }, .accepted, []) := by
  simp only [State.answerRemeasure, read, if_pos locked, answer]

theorem State.answerRemeasure_unlocked {b : RateBytes} {c : RateMode × RateMethod × Nat × Nat} (read : readRate b = some c)
    (unlocked : s.rate.state ≠ .locked) : s.answerRemeasure b = ({ s with rate := s.rate.set c }, .done, []) := by
  simp only [State.answerRemeasure, read, if_neg unlocked, answer]

theorem State.answerRemeasure_range {b : RateBytes} (read : readRate b = none) : s.answerRemeasure b = (s, .range, []) := by
  simp only [State.answerRemeasure, read, answer]

theorem State.answerKeytrack_range {b : KeytrackBytes} (clear : Bool) (read : readKeytrack b = none) :
    s.answerKeytrack b clear = (s, .range, []) := by
  simp only [State.answerKeytrack, read, answer]

theorem State.answerTwowire_set {x : Byte} (ok : 1 ≤ x.toNat ∧ x.toNat ≤ 64) :
    s.answerTwowire x = ({ s with ports := { s.ports with timeout := x.toNat } }, .done, [x]) := by
  simp only [State.answerTwowire, if_pos ok]

theorem State.answerTwowire_range {x : Byte} (bad : ¬(1 ≤ x.toNat ∧ x.toNat ≤ 64)) : s.answerTwowire x = (s, .range, []) := by
  simp only [State.answerTwowire, if_neg bad, answer]

end

/-! ### The setting commands from PANEL, with nothing due -/

section
variable {s t : State} {code : ReplyCode} {data : List Byte}

theorem State.Quiet.exec_tracker (h : s.Quiet) {b : TrackerBytes} (answers : s.answerTracker b = (t, code, data)) :
    exec (.tracker .panel b) s = .next (t.reply .panel ⟨0x40#8, code, data⟩) :=
  congrArg Host.Outcome.next (h.command_answers (src := .panel) (c := .tracker) (body := fun u => u.answerTracker b) (by decide) answers)

theorem State.Quiet.exec_rate (h : s.Quiet) {b : RateBytes} (answers : s.answerRate b = (t, code, data)) :
    exec (.rate .panel b) s = .next (t.reply .panel ⟨0x42#8, code, data⟩) :=
  congrArg Host.Outcome.next (h.command_answers (src := .panel) (c := .rate) (body := fun u => u.answerRate b) (by decide) answers)

theorem State.Quiet.exec_remeasure (h : s.Quiet) {b : RateBytes} (answers : s.answerRemeasure b = (t, code, data)) :
    exec (.remeasure .panel b) s = .next (t.reply .panel ⟨0x42#8, code, data⟩) :=
  congrArg Host.Outcome.next (h.command_answers (src := .panel) (c := .rate) (body := fun u => u.answerRemeasure b) (by decide) answers)

theorem State.Quiet.exec_keytrack (h : s.Quiet) {b : KeytrackBytes} (answers : s.answerKeytrack b false = (t, code, data)) :
    exec (.keytrack .panel b) s = .next (t.reply .panel ⟨0x44#8, code, data⟩) :=
  congrArg Host.Outcome.next (h.commandTracking_answers (src := .panel) (c := .keytrack) (body := fun u => u.answerKeytrack b false) (by decide) answers)

theorem State.Quiet.exec_keytrackClear (h : s.Quiet) {b : KeytrackBytes} (answers : s.answerKeytrack b true = (t, code, data)) :
    exec (.keytrackClear .panel b) s = .next (t.reply .panel ⟨0x44#8, code, data⟩) :=
  congrArg Host.Outcome.next (h.commandTracking_answers (src := .panel) (c := .keytrack) (body := fun u => u.answerKeytrack b true) (by decide) answers)

theorem State.Quiet.exec_howl (h : s.Quiet) {e : Byte} {w : BitVec 16} (answers : s.answerHowl e w = (t, code, data)) :
    exec (.howl .panel e w) s = .next (t.reply .panel ⟨0x45#8, code, data⟩) :=
  congrArg Host.Outcome.next (h.command_answers (src := .panel) (c := .howl) (body := fun u => u.answerHowl e w) (by decide) answers)

theorem State.Quiet.exec_twowire (h : s.Quiet) {x : Byte} (answers : s.answerTwowire x = (t, code, data)) :
    exec (.twowire .panel x) s = .next (t.reply .panel ⟨0x46#8, code, data⟩) :=
  congrArg Host.Outcome.next (h.command_answers (src := .panel) (c := .twowire) (body := fun u => u.answerTwowire x) (by decide) answers)

end

/-- Settles O18: each command leaves its block's answer to the settings that its record carries. -/
theorem settingCommandsReplaceTheirSettings : Obligations.SettingCommandsReplaceTheirSettings := by
  refine ⟨fun s b quiet => ⟨fun ok => ?_, fun bad => ?_⟩,
    fun s quiet => ⟨fun b => ⟨fun bad => ?_, fun ok => ?_⟩, fun b => ⟨fun bad => ?_, fun ok => ?_⟩,
      fun e w => ⟨fun bad => ?_, ?_, ?_⟩, fun x => ⟨fun low high => ?_, fun bad => ?_⟩⟩⟩
  · exact quiet.exec_tracker (s.answerTracker_set (if_pos ok))
  · exact quiet.exec_tracker (s.answerTracker_range (if_neg bad))
  · have unread : readRate b = none := by rw [readRate_eq, if_neg bad]
    exact ⟨quiet.exec_rate (s.answerRate_range unread), quiet.exec_remeasure (s.answerRemeasure_range unread)⟩
  · have read := readRate_eq b
    rw [if_pos ok] at read
    exact ⟨quiet.exec_rate (s.answerRate_set read), fun locked => quiet.exec_remeasure (s.answerRemeasure_locked read locked),
      fun unlocked => quiet.exec_remeasure (s.answerRemeasure_unlocked read unlocked)⟩
  · have unread : readKeytrack b = none := if_neg bad
    exact ⟨quiet.exec_keytrack (s.answerKeytrack_range false unread), quiet.exec_keytrackClear (s.answerKeytrack_range true unread)⟩
  · exact ⟨quiet.exec_keytrack (quiet.answerKeytrack b false ok), quiet.exec_keytrackClear (quiet.answerKeytrack b true ok)⟩
  · exact quiet.exec_howl (s.answerHowl_range bad)
  · rintro ok rfl
    exact quiet.exec_howl (s.answerHowl_set (on := true) rfl ok.2)
  · rintro ok rfl
    exact quiet.exec_howl (s.answerHowl_set (on := false) rfl ok.2)
  · exact quiet.exec_twowire (s.answerTwowire_set ⟨low, high⟩)
  · exact quiet.exec_twowire (s.answerTwowire_range (by omega))

end Sys2Proof.Machine


/-! ## The command decoder (R13, R63, R106, R166, R167, Table 10.1) -/

namespace Sys2Proof.Machine

/-! ### Fields and pairs -/

@[simp] theorem word16_extract (w : BitVec 16) : word16 (w.extractLsb' 8 8) (w.extractLsb' 0 8) = w := by
  simp only [word16]; ext i hi; simp; grind

@[simp] theorem word24_extract (w : BitVec 24) : word24 (w.extractLsb' 16 8) (w.extractLsb' 8 8) (w.extractLsb' 0 8) = w := by
  simp only [word24]; ext i hi; simp; grind

/-- R166: the pairs of a list of binding pairs laid out byte by byte. -/
@[simp] theorem pairsOf_flatMap (l : List (Byte × Byte)) : pairsOf (l.flatMap fun b => [b.1, b.2]) = some l := by
  induction l with
  | nil => rfl
  | cons x xs ih => simp [pairsOf, ih]

theorem pairsOf_length : ∀ {l : List Byte} {p : List (Byte × Byte)}, pairsOf l = some p → l.length = 2 * p.length
  | [], p, h => by simp_all [pairsOf]
  | [_], p, h => by simp [pairsOf] at h
  | a :: b :: rest, p, h => by
    obtain ⟨q, hq, rfl⟩ := Option.map_eq_some_iff.mp h
    have := pairsOf_length hq
    simp; omega

/-! ### The decoder's checks, in their order -/

theorem Cmd.ofCode?_code (c : Cmd) : Cmd.ofCode? c.code = some c := by cases c <;> rfl

/-- R167: a code of no command. -/
theorem decodeRecord_unknown {src : Manual} {code : Byte} {args : List Byte} (h : ∀ c ∈ Cmd.all, c.code ≠ code) :
    decodeRecord src code args = .refused .unknown := by
  have none : Cmd.ofCode? code = none := List.find?_eq_none.mpr fun c hc => by simpa using h c hc
  simp [decodeRecord, none]

theorem decodeRecord_code (src : Manual) (c : Cmd) (args : List Byte) :
    decodeRecord src c.code args =
      if src ∉ c.sources then .refused .notPermitted else if args.length ∉ c.lengths then .refused .format else decodeArgs src c args := by
  simp [decodeRecord, Cmd.ofCode?_code]

theorem decodeRecord_read {src : Manual} {c : Cmd} {args : List Byte} (permitted : src ∈ c.sources) (length : args.length ∈ c.lengths) :
    decodeRecord src c.code args = decodeArgs src c args := by
  simp [decodeRecord_code, permitted, length]

/-! ### What is encoded is read back -/

theorem decodeCueload_encoded (src : Manual) (step : Byte) (r : CueBytes) (few : r.bindings.length ≤ 7) :
    decodeArgs src .cueload
      ([step, r.keyMark, r.key, r.scaleMark, r.scale, r.chord.kind, r.chord.root, r.chord.shape, r.chord.bassMark, r.chord.bass,
        r.setMask, r.clearMask, r.advance] ++ bytes16 r.count ++ [BitVec.ofNat 8 r.bindings.length] ++
        r.bindings.flatMap fun b => [b.1, b.2]) = .command (.cueload src step r) := by
  have count : (BitVec.ofNat 8 r.bindings.length).toNat = r.bindings.length := by
    rw [BitVec.toNat_ofNat]; omega
  have read (rest : List Byte) (pairs : List (Byte × Byte)) (h : pairsOf rest = some pairs) (n : Byte) (hn : n.toNat = pairs.length) :
      decodeCueload src ([step, r.keyMark, r.key, r.scaleMark, r.scale, r.chord.kind, r.chord.root, r.chord.shape, r.chord.bassMark,
        r.chord.bass, r.setMask, r.clearMask, r.advance] ++ bytes16 r.count ++ [n] ++ rest) =
        .command (.cueload src step { r with bindings := pairs }) := by
    simp only [bytes16, List.cons_append, List.nil_append, decodeCueload, h, hn, if_true, word16_extract]
  exact read _ _ (pairsOf_flatMap r.bindings) _ count

theorem decodeArgs_encodeArgs {i : Instr} {src : Manual} {c : Cmd} {args : List Byte} (h : encodeArgs i = some (src, c, args))
    (wf : i.wellFormed = true) : decodeArgs src c args = .command i := by
  cases i
  case cueload src step r =>
    obtain ⟨rfl, rfl, rfl⟩ := by simpa [encodeArgs] using h
    exact decodeCueload_encoded _ _ _ (by simpa [Instr.wellFormed] using wf)
  -- The commands that travel as no record have no arguments; of the others each is read field by field.
  all_goals simp only [encodeArgs, Option.some.injEq, Prod.mk.injEq, reduceCtorEq] at h
  all_goals
    obtain ⟨rfl, rfl, rfl⟩ := h
    show Decoded.command _ = _
    simp only [word16_extract, word24_extract]

/-- Table 10.1, "n": a command's arguments are as many as it allows. -/
theorem encodeArgs_length {i : Instr} {src : Manual} {c : Cmd} {args : List Byte} (h : encodeArgs i = some (src, c, args))
    (wf : i.wellFormed = true) : args.length ∈ c.lengths := by
  cases i
  case cueload src step r =>
    obtain ⟨rfl, rfl, rfl⟩ := by simpa [encodeArgs] using h
    have few : r.bindings.length ≤ 7 := by simpa [Instr.wellFormed] using wf
    simp only [bytes16, Cmd.lengths, List.length_append, List.length_cons, List.length_nil, List.length_flatMap, List.map_const',
      List.sum_replicate, List.mem_cons, List.not_mem_nil, smul_eq_mul]
    omega
  all_goals simp only [encodeArgs, Option.some.injEq, Prod.mk.injEq, reduceCtorEq] at h
  all_goals
    obtain ⟨rfl, rfl, rfl⟩ := h
    simp [bytes16, bytes24, Cmd.lengths]

/-! ### Records refused as they are read -/

/-- R167: a CUELOAD record whose count byte is not the number of its binding pairs. -/
theorem decodeCueload_count {src : Manual} {args : List Byte} (bad : (args.getD 15 0#8).toNat ≠ (args.length - 16) / 2) :
    decodeCueload src args = .refused .format := by
  unfold decodeCueload
  split
  next n rest =>
    split
    next pairs read =>
      have := pairsOf_length read
      rw [if_neg]
      simp only [List.getD_cons_succ, List.getD_cons_zero, List.length_cons] at bad
      omega
    next => rfl
  next => rfl

/-- R13, R106: an action byte above 1 names no action. -/
theorem Byte.above_one {b : Byte} (h : 1 < b.toNat) : b ≠ 0#8 ∧ b ≠ 1#8 := by constructor <;> rintro rfl <;> simp at h

theorem decodeArgs_rate_action (src : Manual) {fields : List Byte} (eight : fields.length = 8) {action : Byte} (h : 1 < action.toNat) :
    decodeArgs src .rate (fields ++ [action]) = .refused .range := by
  obtain ⟨zero, one⟩ := Byte.above_one h
  match fields, eight with
  | [mode, method, a2, a1, a0, b2, b1, b0], _ =>
    show (if action = 0#8 then _ else if action = 1#8 then _ else _) = _
    rw [if_neg zero, if_neg one]

theorem decodeArgs_keytrack_action (src : Manual) {fields : List Byte} (five : fields.length = 5) {action : Byte} (h : 1 < action.toNat) :
    decodeArgs src .keytrack (fields ++ [action]) = .refused .range := by
  obtain ⟨zero, one⟩ := Byte.above_one h
  match fields, five with
  | [d1, d0, m, t1, t0], _ =>
    show (if action = 0#8 then _ else if action = 1#8 then _ else _) = _
    rw [if_neg zero, if_neg one]

/-- R63: a form byte above 2 names no form. -/
theorem decodeArgs_switches_form (src : Manual) {form : Byte} (h : 2 < form.toNat) (arg : Byte) :
    decodeArgs src .switches [form, arg] = .refused .range := by
  obtain ⟨zero, one⟩ := Byte.above_one (b := form) (by omega)
  have two : form ≠ 2#8 := by rintro rfl; simp at h
  show (if form = 0#8 then _ else if form = 1#8 then _ else if form = 2#8 then _ else _) = _
  rw [if_neg zero, if_neg one, if_neg two]

/-! ### Commands given in a form that their source may not send -/

/-- The three ways in which a command that travels as a record passes the decoder. -/
theorem exec_encoded {i : Instr} {src : Manual} {c : Cmd} {args : List Byte} (h : encodeArgs i = some (src, c, args)) (s : State) :
    ∃ body, exec i s = .next (s.command src c body) ∨ exec i s = .next (s.commandMeeting src c body) ∨
      exec i s = .next (s.commandTracking src c body) := by
  cases i
  all_goals simp only [encodeArgs, Option.some.injEq, Prod.mk.injEq, reduceCtorEq] at h
  all_goals obtain ⟨rfl, rfl, rfl⟩ := h
  case setkey | setscale | unpin | cuenext | cueprev | cuegoto | loadscale => exact ⟨_, .inr (.inl rfl)⟩
  case keytrack | keytrackClear => exact ⟨_, .inr (.inr rfl)⟩
  all_goals exact ⟨_, .inl rfl⟩

/-- R167: with nothing due, a record that its source may not give. -/
theorem State.Quiet.exec_notPermitted {s : State} (h : s.Quiet) {i : Instr} {src : Manual} {c : Cmd} {args : List Byte}
    (e : encodeArgs i = some (src, c, args)) (refused : src ∉ c.sources) : exec i s = .next (s.reply src ⟨c.code, .notPermitted, []⟩) := by
  have still : s.due.proposal = none := by rw [h]; rfl
  obtain ⟨body, ran | ran | ran⟩ := exec_encoded e s
  · rw [ran, h.command, State.decoded_notPermitted s refused]
  · rw [ran, h.commandMeeting, State.decoded_notPermitted s refused, State.takeProposal_not_due (by simpa using still)]
  · rw [ran, h.commandTracking, State.decoded_notPermitted s refused]

/-- Settles O47. -/
theorem recordsDecodeToTheirCommands : Obligations.RecordsDecodeToTheirCommands := by
  refine ⟨fun i src c args e permitted wf => ?_, fun src code args => decodeRecord_unknown, fun src c args refused => ?_,
    fun src c args permitted length => ?_, fun args length count => ?_, fun fields action above => ⟨fun eight => ?_, fun five => ?_⟩,
    fun src form arg above => ?_, fun i s src c args quiet e refused => quiet.exec_notPermitted e refused⟩
  · have length := encodeArgs_length e wf
    exact ⟨by rw [decodeRecord_read permitted length, decodeArgs_encodeArgs e wf], length⟩
  · rw [decodeRecord_code, if_pos refused]
  · rw [decodeRecord_code, if_neg (not_not_intro permitted), if_pos length]
  · rw [decodeRecord_read (by decide) length]
    exact decodeCueload_count count
  · exact (decodeRecord_read (c := .rate) (by decide) (by simp [eight, Cmd.lengths])).trans (decodeArgs_rate_action .panel eight above)
  · exact (decodeRecord_read (c := .keytrack) (by decide) (by simp [five, Cmd.lengths])).trans (decodeArgs_keytrack_action .panel five above)
  · exact (decodeRecord_read (c := .switches) (by cases src <;> decide) (by simp [Cmd.lengths])).trans
      (decodeArgs_switches_form src above arg)

end Sys2Proof.Machine


/-! ## Pitch reports and the note decider (R16, R19, R28 to R34) -/

namespace Sys2Proof.Machine

/-! ### Pitch reports -/

/-- R16: a search result in its ranges is taken as it is. -/
theorem searchResult_found {p c : Nat} (shortest : 32 ≤ p) (longest : p ≤ 32768) (low : 1 ≤ c) (high : c ≤ 15) :
    searchResult (.found p c) = some (p, c) := by
  rw [searchResult, min_eq_right longest, max_eq_right shortest, min_eq_right high, max_eq_right low]

theorem makeReport_found (t : TrackerSettings) (nrate level : Nat) {p c : Nat} (shortest : 32 ≤ p) (longest : p ≤ 32768) (low : 1 ≤ c)
    (high : c ≤ 15) :
    makeReport t nrate level (.found p c) =
      ⟨voicedTest t (pitchCode nrate p t.trim) level c, pitchCode nrate p t.trim, some p, c, level⟩ := by
  simp only [makeReport, searchResult_found shortest longest low high]

/-- R19: the four tests. -/
theorem voicedTest_iff (t : TrackerSettings) (code : Option Nat) (level confidence : Nat) :
    voicedTest t code level confidence = true ↔
      (∃ x, code = some x ∧ t.low ≤ x ∧ x ≤ t.high) ∧ t.gate ≤ level ∧ t.confidence ≤ confidence := by
  cases code <;> simp [voicedTest, and_assoc]

/-- R16, R19: a voiced report carries a code in the tracker window. -/
theorem makeReport_voiced_code {t : TrackerSettings} {nrate level : Nat} {a : Analysis} (h : (makeReport t nrate level a).voiced = true) :
    ∃ c, (makeReport t nrate level a).code = some c ∧ t.low ≤ c ∧ c ≤ t.high := by
  unfold makeReport at h ⊢
  split
  next none_found => simp [none_found] at h
  next p c found =>
    simp only [found] at h
    exact ((voicedTest_iff t _ level c).mp h).1

/-! ### What the decider handles: the voiced flag and the code -/

theorem deciderReport_voiced (t : TrackerSettings) (d : Decider) {r : Report} {c : Nat} (v : r.voiced = true) (code : r.code = some c) :
    deciderReport t d r = deciderVoiced t d c := by
  simp [deciderReport, v, code]

theorem deciderReport_coded (t : TrackerSettings) (d : Decider) (c : Nat) (period : Option Nat) (confidence level : Nat) :
    deciderReport t d ⟨true, some c, period, confidence, level⟩ = deciderVoiced t d c := deciderReport_voiced t d rfl rfl

theorem deciderReport_unvoiced (t : TrackerSettings) (d : Decider) {r : Report} (v : r.voiced = false) :
    deciderReport t d r = deciderUnvoiced t d := by
  simp [deciderReport, v]

theorem deciderReport_uncoded (t : TrackerSettings) (d : Decider) {r : Report} (code : r.code = none) :
    deciderReport t d r = deciderUnvoiced t d := by
  simp [deciderReport, code]

/-- Settles O13. -/
theorem voicedReportPassesFourTests : Obligations.VoicedReportPassesFourTests := by
  refine ⟨fun t nrate level p c shortest longest low high => ?_, fun t nrate level => rfl, fun t d r q flag code => ?_⟩
  · dsimp only
    rw [makeReport_found t nrate level shortest longest low high]
    exact ⟨voicedTest_iff t _ level c, rfl, rfl, rfl, rfl⟩
  · cases v : r.voiced with
    | false => rw [deciderReport_unvoiced t d v, deciderReport_unvoiced t d (flag.symm.trans v)]
    | true =>
      cases carried : r.code with
      | none => rw [deciderReport_uncoded t d carried, deciderReport_uncoded t d ((code v).symm.trans carried)]
      | some c => rw [deciderReport_voiced t d v carried, deciderReport_voiced t d (flag.symm.trans v) ((code v).symm.trans carried)]

/-! ### Counts set or raised (R29) -/

section
variable {s rl count : Nat} (c n m : Nat) (dev : Int)

theorem settleOnset_complete (h : s ≤ count) : settleOnset s c m count = (⟨.held m, (c : Int) - 32 * m⟩, some (.noteOn m)) := if_pos h
theorem settleOnset_counting (h : count < s) : settleOnset s c m count = (⟨.onset m count, 0⟩, none) := if_neg (Nat.not_le.mpr h)
theorem settleTransition_complete (h : s ≤ count) :
    settleTransition s c n m count dev = (⟨.held m, (c : Int) - 32 * m⟩, some (.noteChange n m)) := if_pos h
theorem settleTransition_counting (h : count < s) : settleTransition s c n m count dev = (⟨.transition n m count, dev⟩, none) :=
  if_neg (Nat.not_le.mpr h)
theorem releaseCount_complete (h : rl ≤ count) : releaseCount rl n count dev = (⟨.silent, 0⟩, some (.noteOff n)) := if_pos h
theorem releaseCount_counting (h : count < rl) : releaseCount rl n count dev = (⟨.releasing n count, dev⟩, none) := if_neg (Nat.not_le.mpr h)

end

/-! ### Reports state by state (R30 to R34) -/

/-- R29: the capture band of note `n` at hysteresis `h`. -/
def InBand (h n c : Nat) : Prop := (32 * n : Int) - 16 - h ≤ c ∧ (c : Int) ≤ 32 * n + 15 + h

theorem insideBand_iff (h n c : Nat) : insideBand h n c = true ↔ InBand h n c := by simp [insideBand, InBand]

/-- R29: a code up to 3055 lies in the band of its candidate, whatever the hysteresis. -/
theorem inBand_candidateOf {c : Nat} (h : Nat) (top : c ≤ 3055) : InBand h (candidateOf c) c := by
  unfold InBand candidateOf; omega

section
variable (t : TrackerSettings) {d : Decider} (c : Nat) {n k count : Nat}

theorem deciderVoiced_silent (h : d.state = .silent) : deciderVoiced t d c = settleOnset t.settle c (candidateOf c) 1 := by
  simp [deciderVoiced, h]

theorem deciderVoiced_onset_same (h : d.state = .onset k count) (same : candidateOf c = k) :
    deciderVoiced t d c = settleOnset t.settle c k (count + 1) := by
  simp [deciderVoiced, h, same]

theorem deciderVoiced_onset_other (h : d.state = .onset k count) (other : candidateOf c ≠ k) :
    deciderVoiced t d c = settleOnset t.settle c (candidateOf c) 1 := by
  simp [deciderVoiced, h, other]

/-- R32 to R34: a code inside the band of the note that the decider reports keeps the note or returns to it. -/
theorem deciderVoiced_inside (h : d.state.note = some n) (inside : InBand t.hysteresis n c) :
    deciderVoiced t d c = (⟨.held n, (c : Int) - 32 * n⟩, none) := by
  have captured := (insideBand_iff _ _ _).mpr inside
  cases state : d.state <;> simp_all [DeciderState.note, deciderVoiced, deviation]

/-- R32, R34: outside the band, a HELD or RELEASING note begins a transition. -/
theorem deciderVoiced_leaves (h : d.state = .held n ∨ d.state = .releasing n count) (outside : ¬InBand t.hysteresis n c) :
    deciderVoiced t d c = settleTransition t.settle c n (candidateOf c) 1 d.dev := by
  rw [← insideBand_iff] at outside
  obtain h | h := h <;> simp [deciderVoiced, h, outside]

theorem deciderVoiced_transition_same (h : d.state = .transition n k count) (outside : ¬InBand t.hysteresis n c)
    (same : candidateOf c = k) : deciderVoiced t d c = settleTransition t.settle c n k (count + 1) d.dev := by
  rw [← insideBand_iff] at outside
  simp [deciderVoiced, h, outside, same]

theorem deciderVoiced_transition_other (h : d.state = .transition n k count) (outside : ¬InBand t.hysteresis n c)
    (other : candidateOf c ≠ k) : deciderVoiced t d c = settleTransition t.settle c n (candidateOf c) 1 d.dev := by
  rw [← insideBand_iff] at outside
  simp [deciderVoiced, h, outside, other]

/-- R30, R31: an unvoiced report in SILENT or ONSET. -/
theorem deciderUnvoiced_noteless (h : d.state.note = none) : deciderUnvoiced t d = (⟨.silent, 0⟩, none) := by
  cases state : d.state <;> simp_all [DeciderState.note, deciderUnvoiced]

/-- R32, R33: an unvoiced report in HELD or TRANSITION begins the release. -/
theorem deciderUnvoiced_releases (h : d.state = .held n ∨ d.state = .transition n k count) :
    deciderUnvoiced t d = releaseCount t.release n 1 d.dev := by
  obtain h | h := h <;> simp [deciderUnvoiced, h]

theorem deciderUnvoiced_releasing (h : d.state = .releasing n count) :
    deciderUnvoiced t d = releaseCount t.release n (count + 1) d.dev := by
  simp [deciderUnvoiced, h]

end

/-- Settles O14: each report sets or raises the settle count of the candidate, or leaves no note. -/
theorem deciderStartsANote : Obligations.DeciderStartsANote := by
  refine ⟨fun t d c level period confidence code silent => ?_, fun t d c level period confidence code k n onset => ?_⟩ <;>
    dsimp only <;> rw [deciderReport_coded, deciderReport_unvoiced t d rfl]
  · rw [deciderVoiced_silent t c silent]
    exact ⟨deciderUnvoiced_noteless t (by rw [silent]; rfl), settleOnset_counting c _, settleOnset_complete c _⟩
  · refine ⟨deciderUnvoiced_noteless t (by rw [onset]; rfl), fun same => ?_, fun same => ?_, fun other => ?_, fun other => ?_⟩
    · rw [deciderVoiced_onset_same t c onset same]; exact settleOnset_counting c k
    · rw [deciderVoiced_onset_same t c onset same]; exact settleOnset_complete c k
    · rw [deciderVoiced_onset_other t c onset other]; exact settleOnset_counting c _
    · rw [deciderVoiced_onset_other t c onset other]; exact settleOnset_complete c _

/-- Settles O15: inside the band the note stays; outside it the settle count of the new note, and without a voice the
release count, is set or raised. -/
theorem deciderKeepsANote : Obligations.DeciderKeepsANote := by
  refine ⟨fun t d c level period confidence code N held noteTop codeTop => ?_, fun t d c level period confidence code N k n moving => ?_,
    fun t d c level period confidence code N n releasing => ?_⟩ <;>
    dsimp only <;> rw [deciderReport_coded, deciderReport_unvoiced t d rfl]
  · rw [deciderUnvoiced_releases t (k := 0) (count := 0) (.inl held)]
    refine ⟨deciderVoiced_inside t c (by rw [held]; rfl), fun outside => ⟨?_, ?_⟩, releaseCount_counting N _, releaseCount_complete N _⟩
    · rintro candidate
      exact outside (candidate ▸ inBand_candidateOf t.hysteresis codeTop)
    · rw [deciderVoiced_leaves t c (count := 0) (.inl held) outside]
      exact ⟨settleTransition_counting c N _ _, settleTransition_complete c N _ _⟩
  · rw [deciderUnvoiced_releases t (.inr moving)]
    refine ⟨by rw [moving]; rfl, deciderVoiced_inside t c (by rw [moving]; rfl), fun outside same => ?_, fun outside same => ?_,
      fun outside other => ?_, fun outside other => ?_, releaseCount_counting N _, releaseCount_complete N _⟩
    · rw [deciderVoiced_transition_same t c moving outside same]; exact settleTransition_counting c N k _
    · rw [deciderVoiced_transition_same t c moving outside same]; exact settleTransition_complete c N k _
    · rw [deciderVoiced_transition_other t c moving outside other]; exact settleTransition_counting c N _ _
    · rw [deciderVoiced_transition_other t c moving outside other]; exact settleTransition_complete c N _ _
  · rw [deciderUnvoiced_releasing t releasing]
    refine ⟨releaseCount_counting N _, releaseCount_complete N _, deciderVoiced_inside t c (by rw [releasing]; rfl),
      fun outside => ?_, fun outside => ?_⟩
    · rw [deciderVoiced_leaves t c (.inr releasing) outside]; exact settleTransition_counting c N _ _
    · rw [deciderVoiced_leaves t c (.inr releasing) outside]; exact settleTransition_complete c N _ _

end Sys2Proof.Machine


/-! ## The settings in their ranges (R21, R25, R79, R106, R165, R174, Table 2.1, Table 5.2) -/

namespace Sys2Proof.Machine

/-! ### The chord line settings: CHORDLINE alone changes them -/

@[simp] theorem State.handCondition_settings (s : State) (c : LineCondition) : (s.handCondition c).line.settings = s.line.settings := by
  simp only [State.handCondition]; split <;> simp

@[simp] theorem State.deriveCondition_settings (s : State) : s.deriveCondition.line.settings = s.line.settings :=
  State.handCondition_settings s _

@[simp] theorem State.frameContent_settings (s : State) (c : FrameContent) : (s.frameContent c).line.settings = s.line.settings := by
  cases c <;> simp [State.frameContent]

@[simp] theorem State.validFrame_settings (s : State) (c : FrameContent) : (s.validFrame c).line.settings = s.line.settings := by
  simp only [State.validFrame]; split <;> simp

@[simp] theorem State.dropFrame_settings (s : State) : s.dropFrame.line.settings = s.line.settings := by
  simp [State.dropFrame]

@[simp] theorem State.completeFrame_settings (s : State) (k : FrameKind) (d : List Byte) :
    (s.completeFrame k d).line.settings = s.line.settings := by
  simp only [State.completeFrame]; split <;> simp

@[simp] theorem State.takeHeader_settings (s : State) (v : Byte) : (s.takeHeader v).line.settings = s.line.settings := by
  simp only [State.takeHeader]; (repeat' split) <;> simp

@[simp] theorem State.huntChar_settings (s : State) (c : LineChar) : (s.huntChar c).line.settings = s.line.settings := by
  simp only [State.huntChar]; (repeat' split) <;> simp

@[simp] theorem State.frameChar_settings (s : State) (k : FrameKind) (n : Nat) (d : List Byte) (c : LineChar) :
    (s.frameChar k n d c).line.settings = s.line.settings := by
  simp only [State.frameChar]; (repeat' split) <;> simp

@[simp] theorem State.takeChar_settings (s : State) : s.takeChar.line.settings = s.line.settings := by
  simp only [State.takeChar]; (repeat' split) <;> simp

@[simp] theorem State.drain_settings (n : Nat) (s : State) : (State.drain n s).line.settings = s.line.settings := by
  induction n generalizing s with
  | zero => rfl
  | succ n ih => exact (ih s.takeChar).trans s.takeChar_settings

@[simp] theorem State.receive_settings (s : State) (c : LineChar) : (s.receive c).line.settings = s.line.settings := by
  simp only [State.receive]; split <;> simp

@[simp] theorem State.character_settings (s : State) (s1 s2 s3 : BitVec 12) : (s.character s1 s2 s3).line.settings = s.line.settings := by
  simp only [State.character]; (repeat' split) <;> simp

@[simp] theorem State.falseStart_settings (s : State) (s1 s2 s3 : Bool) : (s.falseStart s1 s2 s3).line.settings = s.line.settings := by
  simp only [State.falseStart]; split <;> simp

@[simp] theorem State.lineBreak_settings (s : State) : s.lineBreak.line.settings = s.line.settings := by
  simp only [State.lineBreak]; split <;> simp

@[simp] theorem State.matchEnd_settings (s : State) : s.matchEnd.line.settings = s.line.settings := by
  simp only [State.matchEnd]; split <;> simp

@[simp] theorem State.takeSilence_settings (s : State) : s.takeSilence.line.settings = s.line.settings := by
  simp only [State.takeSilence]; split <;> simp

@[simp] theorem Line.atHop_settings (l : Line) : l.atHop.settings = l.settings := by
  simp only [Line.atHop]; split <;> rfl

@[simp] theorem State.measurement_line_settings (s : State) (m : Nat) (a : Analysis) (o : RenderOrder) :
    (s.measurement m a o).line.settings = s.line.settings := by
  simp only [State.measurement]; (repeat' split) <;> simp [State.hop_lines]

@[simp] theorem State.lineChanged_settings (s : State) (o : LineSettings) : (s.lineChanged o).line.settings = s.line.settings := by
  simp only [State.lineChanged, State.disableLine, State.enableLine]; (repeat' split) <;> simp [Line.abandonReception]

@[simp] theorem State.lineThresholds_settings (s : State) : s.lineThresholds.line.settings = s.line.settings := by
  simp only [State.lineThresholds]; split <;> simp

/-- R79: the STALE and LOST thresholds of the line settings. -/
def State.ThresholdsInRange (s : State) : Prop := s.line.settings.stale ≤ 255 ∧ s.line.settings.lost ≤ 255

theorem State.ThresholdsInRange.same {s t : State} (h : s.ThresholdsInRange) (e : t.line.settings = s.line.settings) : t.ThresholdsInRange := by
  rw [State.ThresholdsInRange, e]; exact h

/-- R79: the settings of a CHORDLINE record carry its two threshold bytes. -/
theorem readLine_thresholds {b : LineBytes} {e : Option Bool} {new : LineSettings} (read : readLine b e = some new) :
    new.stale ≤ 255 ∧ new.lost ≤ 255 := by
  simp only [readLine] at read
  split at read
  next =>
    obtain rfl := Option.some.inj read
    exact ⟨Nat.le_of_lt_succ b.stale.isLt, Nat.le_of_lt_succ b.lost.isLt⟩
  next => cases read

theorem thresholdsInRange_kept : Kept State.ThresholdsInRange := by
  constructor
  case powerOn => intro s sa _; simp [State.ThresholdsInRange, State.powerOn, Line.atReset]
  case line =>
    intro s b e h
    simp only [State.answerLine, answer]
    split
    next => exact h
    next new read => simpa [State.ThresholdsInRange] using readLine_thresholds read
  case restart => intro s h; exact h.same (by simp [State.answerRestart, answer, State.resetRuntime, Line.restarted])
  all_goals intros; exact State.ThresholdsInRange.same ‹_› (by simp)

/-! ### The key tracker settings: KEYTRACK alone changes them -/

/-- R98, R106: the three settings of the key tracker. -/
def KeyTracker.SettingsInRange (k : KeyTracker) : Prop :=
  16 ≤ k.decay ∧ k.decay ≤ 4096 ∧ k.decay % 16 = 0 ∧ k.margin ≤ 63 ∧ k.minTotal ≤ 65535

def State.KeySettingsInRange (s : State) : Prop := s.key.SettingsInRange

theorem KeyTracker.SettingsInRange.same {k l : KeyTracker} (h : k.SettingsInRange)
    (e : l.decay = k.decay ∧ l.margin = k.margin ∧ l.minTotal = k.minTotal) : l.SettingsInRange := by
  obtain ⟨decay, margin, minTotal⟩ := e
  rw [KeyTracker.SettingsInRange, decay, margin, minTotal]
  exact h

@[simp] theorem KeyTracker.afterReport_settings (k : KeyTracker) (r : Report) (d : DeciderState) :
    (k.afterReport r d).margin = k.margin ∧ (k.afterReport r d).minTotal = k.minTotal := by
  simp only [KeyTracker.afterReport]; split <;> simp

theorem State.hop_key_settings (s : State) (a : Analysis) (o : RenderOrder) :
    (s.hop a o).key.decay = s.key.decay ∧ (s.hop a o).key.margin = s.key.margin ∧ (s.hop a o).key.minTotal = s.key.minTotal := by
  simp [s.hop_reported a o]

theorem readKeytrack_inRange {b : KeytrackBytes} {d m minTotal : Nat} (read : readKeytrack b = some (d, m, minTotal)) :
    16 ≤ d ∧ d ≤ 4096 ∧ d % 16 = 0 ∧ m ≤ 63 ∧ minTotal ≤ 65535 := by
  simp only [readKeytrack] at read
  split at read
  next ok =>
    obtain ⟨low, high, whole, margin⟩ := ok
    cases read
    exact ⟨low, high, whole, margin, Nat.le_of_lt_succ b.minTotal.isLt⟩
  next => cases read

theorem keySettingsInRange_kept : Kept State.KeySettingsInRange := by
  constructor
  case powerOn => intro s sa _; simp [State.KeySettingsInRange, KeyTracker.SettingsInRange, State.powerOn, KeyTracker.atReset]
  case takeEvaluation =>
    intro s h
    simp only [State.takeEvaluation]
    split <;> exact h
  case measurement =>
    intro s m a o h
    simp only [State.measurement]
    split
    · exact h
    split
    · exact h.same (by simp [State.hop_key_settings])
    · exact h.same (by simp)
  case keytrack =>
    intro s b clear h
    simp only [State.answerKeytrack, answer]
    split
    next => exact h
    next d m minTotal read => cases clear <;> exact readKeytrack_inRange read
  case restart =>
    intro s h
    exact h.same (by simp [State.answerRestart, answer, State.resetRuntime, KeyTracker.restarted])
  all_goals intros; exact KeyTracker.SettingsInRange.same ‹State.KeySettingsInRange _› (by simp)

/-! ### The howl window: HOWL alone changes it -/

@[simp] theorem State.enterBypass_window (s : State) : s.enterBypass.fault.window = s.fault.window := by simp [State.enterBypass]
@[simp] theorem State.enterRun_window (s : State) : s.enterRun.fault.window = s.fault.window := by simp [State.enterRun]

@[simp] theorem State.causeAppears_window (s : State) (k : Cause) : (s.causeAppears k).fault.window = s.fault.window := by
  simp only [State.causeAppears]; (repeat' split) <;> simp

@[simp] theorem State.causeClears_window (s : State) (k : Cause) : (s.causeClears k).fault.window = s.fault.window := by
  simp only [State.causeClears]; split <;> simp

@[simp] theorem State.howlAppears_window (s : State) : s.howlAppears.fault.window = s.fault.window := by
  simp only [State.howlAppears]; split <;> simp

@[simp] theorem State.failLearn_window (s : State) : s.failLearn.fault.window = s.fault.window := by
  obtain ⟨-, -, -, -, -, -, window⟩ := FaultMonitor.of_unflagged s.failLearn_unflagged
  exact window

@[simp] theorem State.rateLoss_window (s : State) : s.rateLoss.fault.window = s.fault.window := by
  simp [State.rateLoss, State.forceSilent, State.howlSilent_fault]

@[simp] theorem State.raiseIf_window (s : State) (c : Bool) (f : Flag) : (s.raiseIf c f).fault.window = s.fault.window := by
  cases c <;> rfl

@[simp] theorem State.measure_window (s : State) (m : Nat) : (s.measure m).1.fault.window = s.fault.window := by
  simp only [State.measure, State.measureAcquiring, State.measureLocked]; (repeat' split) <;> simp

@[simp] theorem State.rateAbsence_window (s : State) : s.rateAbsence.fault.window = s.fault.window := by
  simp only [State.rateAbsence]; split <;> simp

@[simp] theorem FaultMonitor.atHop_window (f : FaultMonitor) : f.atHop.1.window = f.window := by
  simp only [FaultMonitor.atHop]; split <;> rfl

@[simp] theorem FaultMonitor.howlReport_window (f : FaultMonitor) (held : Bool) (confidence level : Nat) (sounding : Bool) (dev : Int) :
    (f.howlReport held confidence level sounding dev).1.window = f.window := by
  simp only [FaultMonitor.howlReport]; (repeat' split) <;> rfl

theorem State.hop_window (s : State) (a : Analysis) (o : RenderOrder) : (s.hop a o).fault.window = s.fault.window := by
  obtain ⟨-, -, fault, -⟩ := s.hop_reported a o
  rw [fault, State.report_fault, State.howlHeard, FaultMonitor.howlReport_window]
  split <;> simp [State.howlSilent_fault, State.recoveryHop]

/-- R174: the window of the howl check. -/
def State.WindowInRange (s : State) : Prop := 64 ≤ s.fault.window ∧ s.fault.window ≤ 2048 ∧ s.fault.window % 64 = 0

theorem State.WindowInRange.same {s t : State} (h : s.WindowInRange) (e : t.fault.window = s.fault.window) : t.WindowInRange := by
  rw [State.WindowInRange, e]; exact h

/-- An operation that raises flags alone keeps the window. -/
theorem State.WindowInRange.unflagged {s t : State} (h : s.WindowInRange) (e : t.fault.unflagged = s.fault.unflagged) :
    t.WindowInRange := by
  obtain ⟨-, -, -, -, -, -, window⟩ := FaultMonitor.of_unflagged e
  exact h.same window

theorem windowInRange_kept : Kept State.WindowInRange := by
  constructor
  case powerOn => intro s sa _; simp [State.WindowInRange, State.powerOn, FaultMonitor.atReset]
  case takeHowl => intro s h; exact h.same (by simp only [State.takeHowl]; split <;> simp)
  case takeRecovery => intro s h; exact h.same (by simp only [State.takeRecovery]; (repeat' split) <;> simp)
  case absence => intro s h; exact h.same (by simp only [State.absence]; split <;> simp)
  case measurement =>
    intro s m a o h
    exact h.same (by simp only [State.measurement]; (repeat' split) <;> simp [State.hop_window])
  case howl =>
    intro s e w h
    simp only [State.answerHowl, answer]
    split
    next => exact h
    next on _ =>
      split
      next ok => cases on <;> exact ok
      next => exact h
  case clearfault => intro s h; exact h.same (by simp only [State.answerClearfault]; (repeat' split) <;> simp)
  case restart => intro s h; exact h.same (by simp [State.answerRestart, answer, State.resetRuntime, FaultMonitor.restarted])
  all_goals intros; exact State.WindowInRange.unflagged ‹_› (by simp)

/-! ### The stage port's time-out: TWOWIRE alone changes it -/

/-- R165: the time-out setting. -/
def State.TimeoutInRange (s : State) : Prop := 1 ≤ s.ports.timeout ∧ s.ports.timeout ≤ 64

theorem State.TimeoutInRange.same {s t : State} (h : s.TimeoutInRange) (e : t.ports.timeout = s.ports.timeout) : t.TimeoutInRange := by
  rw [State.TimeoutInRange, e]; exact h

theorem timeoutInRange_kept : Kept State.TimeoutInRange := by
  constructor
  case powerOn => intro s sa _; simp [State.TimeoutInRange, State.powerOn, Ports.atReset]
  case ports => intro s p timeout _ h; exact h.same timeout
  case twowire =>
    intro s x h
    by_cases ok : 1 ≤ x.toNat ∧ x.toNat ≤ 64
    · rw [State.answerTwowire_set s ok]; exact ok
    · rw [State.answerTwowire_range s ok]; exact h
  all_goals intros; exact State.TimeoutInRange.same ‹_› (by simp)

/-! ### The tracker settings: TRACKER changes them, and a learn that completes the gate -/

/-- R21: the settings that a TRACKER record carries. -/
theorem readTracker_inRange {b : TrackerBytes} {t : TrackerSettings} (read : readTracker b = some t) : t.InRange := by
  simp only [readTracker] at read
  split at read
  next ok =>
    obtain ⟨trimLow, trimHigh, low, lowTop, high, highTop, gate, confidence, confidenceTop, hysteresis, settle, settleTop, release, releaseTop,
      apart⟩ := ok
    obtain rfl := Option.some.inj read
    exact ⟨trimLow, trimHigh, low, lowTop, high, highTop, apart, gate, confidence, confidenceTop, hysteresis, settle, settleTop, release, releaseTop⟩
  next => cases read

/-- R25: a learn's gate is a level code. -/
theorem LearnRecord.gate_le (l : LearnRecord) : l.gate ≤ 63 := by
  simp only [LearnRecord.gate]; split <;> exact min_le_left _ _

theorem TrackerSettings.InRange.setGate {t : TrackerSettings} (h : t.InRange) {gate : Nat} (le : gate ≤ 63) :
    TrackerSettings.InRange { t with gate := gate } := by
  obtain ⟨trimLow, trimHigh, low, lowTop, high, highTop, apart, -, rest⟩ := h
  exact ⟨trimLow, trimHigh, low, lowTop, high, highTop, apart, le, rest⟩

/-- Table 2.1: the tracker settings of a state lie in their ranges. -/
def State.TrackerInRange (s : State) : Prop := s.tracker.settings.InRange

theorem State.TrackerInRange.same {s t : State} (h : s.TrackerInRange) (e : t.tracker.settings = s.tracker.settings) : t.TrackerInRange := by
  rw [State.TrackerInRange, e]; exact h

theorem State.TrackerInRange.completeLearn {s : State} (h : s.TrackerInRange) : s.completeLearn.TrackerInRange := by
  simp only [State.completeLearn]
  split
  next => exact h
  next l _ =>
    split
    next => exact h.same (by simp)
    next =>
      simp only [State.TrackerInRange, State.raise_frame]
      exact TrackerSettings.InRange.setGate h l.gate_le

@[simp] theorem State.failLearn_settings (s : State) : s.failLearn.tracker.settings = s.tracker.settings := by simp [State.failLearn]

@[simp] theorem State.rateLoss_settings (s : State) : s.rateLoss.tracker.settings = s.tracker.settings := by simp [State.rateLoss_blocks]

@[simp] theorem State.measure_settings (s : State) (m : Nat) : (s.measure m).1.tracker.settings = s.tracker.settings := by
  simp only [State.measure, State.measureAcquiring, State.measureLocked]; (repeat' split) <;> simp

@[simp] theorem State.rateAbsence_settings (s : State) : s.rateAbsence.tracker.settings = s.tracker.settings := by
  simp only [State.rateAbsence]; split <;> simp

@[simp] theorem State.hop_settings (s : State) (a : Analysis) (o : RenderOrder) : (s.hop a o).tracker.settings = s.tracker.settings := by
  simp [s.hop_reported a o]

@[simp] theorem State.absence_settings (s : State) : s.absence.tracker.settings = s.tracker.settings := by
  simp only [State.absence]; split <;> simp

@[simp] theorem State.measurement_settings (s : State) (m : Nat) (a : Analysis) (o : RenderOrder) :
    (s.measurement m a o).tracker.settings = s.tracker.settings := by
  simp only [State.measurement]; (repeat' split) <;> simp

theorem State.answerRestart_settings (s : State) : s.answerRestart.1.tracker.settings = s.tracker.settings := by
  simp [State.answerRestart, answer, State.resetRuntime]

theorem State.powerOn_trackerInRange (sa : BitVec 2) : (State.powerOn sa).TrackerInRange := by
  simp [State.TrackerInRange, TrackerSettings.InRange, State.powerOn, Tracker.atReset]

theorem trackerInRange_kept : Kept State.TrackerInRange := by
  constructor
  case powerOn => intro s sa _; exact State.powerOn_trackerInRange sa
  case takeLearn =>
    intro s h
    simp only [State.takeLearn]
    split
    · exact State.TrackerInRange.completeLearn (by exact h)
    · exact h
  case nextFrame => intro s w b h; exact h.same (by simp [State.nextFrame, State.beginFrame, State.moveSamples])
  case tracker =>
    intro s b h
    cases read : readTracker b with
    | none => rw [State.answerTracker_range s read]; exact h
    | some t => rw [State.answerTracker_set s read]; exact readTracker_inRange read
  case learn =>
    intro s method h
    simp only [State.answerLearn, answer]
    (repeat' split) <;> exact h
  case restart => intro s h; exact h.same s.answerRestart_settings
  all_goals intros; exact State.TrackerInRange.same ‹_› (by simp)

/-! ### The decider's counts and dev (R28 to R34, Table 2.5) -/

/-- R28, Table 2.5: the decider's part of `State.DeciderInRange`. -/
def Decider.InRange (d : Decider) : Prop :=
  d.state.CountsInRange ∧ -31 ≤ d.dev ∧ d.dev ≤ 30 ∧ (d.state = .silent → d.dev = 0) ∧ ∀ m k, d.state = .onset m k → d.dev = 0

theorem State.deciderInRange_iff (s : State) : s.DeciderInRange ↔ s.TrackerInRange ∧ s.decider.InRange := Iff.rfl

theorem Decider.silent_inRange : Decider.InRange ⟨.silent, 0⟩ := by simp [Decider.InRange, DeciderState.CountsInRange]

theorem Decider.onset_inRange (m : Nat) {k : Nat} (one : 1 ≤ k) (top : k ≤ 7) : Decider.InRange ⟨.onset m k, 0⟩ := by
  simp [Decider.InRange, DeciderState.CountsInRange, one, top]

theorem Decider.held_inRange {n : Nat} {dev : Int} (low : -31 ≤ dev) (high : dev ≤ 30) : Decider.InRange ⟨.held n, dev⟩ := by
  simp [Decider.InRange, DeciderState.CountsInRange, low, high]

theorem Decider.transition_inRange (n m : Nat) {k : Nat} {dev : Int} (one : 1 ≤ k) (top : k ≤ 7) (low : -31 ≤ dev) (high : dev ≤ 30) :
    Decider.InRange ⟨.transition n m k, dev⟩ := by
  simp [Decider.InRange, DeciderState.CountsInRange, one, top, low, high]

theorem Decider.releasing_inRange (n : Nat) {k : Nat} {dev : Int} (one : 1 ≤ k) (top : k ≤ 63) (low : -31 ≤ dev) (high : dev ≤ 30) :
    Decider.InRange ⟨.releasing n k, dev⟩ := by
  simp [Decider.InRange, DeciderState.CountsInRange, one, top, low, high]

/-- R28, R29: a code in the band of a note, at a hysteresis of at most 15, deviates from its centre by −31 to +30. -/
theorem Decider.held_of_inBand {h n c : Nat} (hysteresis : h ≤ 15) (inside : InBand h n c) :
    Decider.InRange ⟨.held n, (c : Int) - 32 * n⟩ := by
  obtain ⟨low, high⟩ := inside
  exact Decider.held_inRange (by omega) (by omega)

section
variable {c n count : Nat} {dev : Int}

/-- R31: S is at most 8, so that a count below it is at most 7. -/
theorem settleOnset_inRange {s : Nat} (settle : s ≤ 8) (one : 1 ≤ count) (top : c ≤ 3055) :
    (settleOnset s c (candidateOf c) count).1.InRange := by
  by_cases full : s ≤ count
  · rw [settleOnset_complete c _ full]
    exact Decider.held_of_inBand (h := 0) (by omega) (inBand_candidateOf 0 top)
  · rw [settleOnset_counting c _ (by omega)]
    exact Decider.onset_inRange _ one (by omega)

theorem settleTransition_inRange {s : Nat} (settle : s ≤ 8) (one : 1 ≤ count) (top : c ≤ 3055) (low : -31 ≤ dev) (high : dev ≤ 30) :
    (settleTransition s c n (candidateOf c) count dev).1.InRange := by
  by_cases full : s ≤ count
  · rw [settleTransition_complete c n _ dev full]
    exact Decider.held_of_inBand (h := 0) (by omega) (inBand_candidateOf 0 top)
  · rw [settleTransition_counting c n _ dev (by omega)]
    exact Decider.transition_inRange n _ one (by omega) low high

/-- R33: Rl is at most 64, so that a count below it is at most 63. -/
theorem releaseCount_inRange {rl : Nat} (release : rl ≤ 64) (one : 1 ≤ count) (low : -31 ≤ dev) (high : dev ≤ 30) :
    (releaseCount rl n count dev).1.InRange := by
  by_cases full : rl ≤ count
  · rw [releaseCount_complete n dev full]
    exact Decider.silent_inRange
  · rw [releaseCount_counting n dev (by omega)]
    exact Decider.releasing_inRange n one (by omega) low high

end

theorem deciderVoiced_inRange {t : TrackerSettings} {d : Decider} {c : Nat} (settle : t.settle ≤ 8) (hysteresis : t.hysteresis ≤ 15)
    (h : d.InRange) (top : c ≤ 3055) : (deciderVoiced t d c).1.InRange := by
  obtain ⟨-, low, high, -⟩ := h
  have noted {n : Nat} (reports : d.state.note = some n) (outside : ¬InBand t.hysteresis n c → (deciderVoiced t d c).1.InRange) :
      (deciderVoiced t d c).1.InRange := by
    by_cases inside : InBand t.hysteresis n c
    · rw [deciderVoiced_inside t c reports inside]
      exact Decider.held_of_inBand hysteresis inside
    · exact outside inside
  cases state : d.state with
  | silent =>
    rw [deciderVoiced_silent t c state]
    exact settleOnset_inRange settle le_rfl top
  | onset k count =>
    by_cases same : candidateOf c = k
    · rw [deciderVoiced_onset_same t c state same, ← same]
      exact settleOnset_inRange settle (by omega) top
    · rw [deciderVoiced_onset_other t c state same]
      exact settleOnset_inRange settle le_rfl top
  | held n =>
    refine noted (by rw [state]; rfl) fun outside => ?_
    rw [deciderVoiced_leaves t c (count := 0) (.inl state) outside]
    exact settleTransition_inRange settle le_rfl top low high
  | transition n k count =>
    refine noted (by rw [state]; rfl) fun outside => ?_
    by_cases same : candidateOf c = k
    · rw [deciderVoiced_transition_same t c state outside same, ← same]
      exact settleTransition_inRange settle (by omega) top low high
    · rw [deciderVoiced_transition_other t c state outside same]
      exact settleTransition_inRange settle le_rfl top low high
  | releasing n count =>
    refine noted (by rw [state]; rfl) fun outside => ?_
    rw [deciderVoiced_leaves t c (.inr state) outside]
    exact settleTransition_inRange settle le_rfl top low high

theorem deciderUnvoiced_inRange {t : TrackerSettings} {d : Decider} (release : t.release ≤ 64) (h : d.InRange) :
    (deciderUnvoiced t d).1.InRange := by
  obtain ⟨-, low, high, -⟩ := h
  cases state : d.state with
  | silent => rw [deciderUnvoiced_noteless t (by rw [state]; rfl)]; exact Decider.silent_inRange
  | onset k count => rw [deciderUnvoiced_noteless t (by rw [state]; rfl)]; exact Decider.silent_inRange
  | held n =>
    rw [deciderUnvoiced_releases t (k := 0) (count := 0) (.inl state)]
    exact releaseCount_inRange release le_rfl low high
  | transition n k count =>
    rw [deciderUnvoiced_releases t (.inr state)]
    exact releaseCount_inRange release le_rfl low high
  | releasing n count =>
    rw [deciderUnvoiced_releasing t state]
    exact releaseCount_inRange release (by omega) low high

/-- R19: a voiced report's code lies in the tracker window, far below the codes that have no candidate of their own. -/
theorem deciderReport_inRange {t : TrackerSettings} {d : Decider} (settings : t.InRange) (h : d.InRange) (nrate level : Nat) (a : Analysis) :
    (deciderReport t d (makeReport t nrate level a)).1.InRange := by
  obtain ⟨-, -, -, -, -, windowTop, -, -, -, -, hysteresis, -, settle, -, release⟩ := settings
  cases voiced : (makeReport t nrate level a).voiced with
  | false =>
    rw [deciderReport_unvoiced t d voiced]
    exact deciderUnvoiced_inRange release h
  | true =>
    obtain ⟨c, code, -, inWindow⟩ := makeReport_voiced_code voiced
    rw [deciderReport_voiced t d voiced code]
    exact deciderVoiced_inRange settle hysteresis h (by omega)

theorem State.hop_decider (s : State) (a : Analysis) (o : RenderOrder) : (s.hop a o).decider = (s.decided a).1 := by
  simp [s.hop_reported a o]

theorem State.DeciderInRange.same {s t : State} (h : s.DeciderInRange) (e : t.tracker.settings = s.tracker.settings)
    (d : t.decider = s.decider) : t.DeciderInRange := by
  rw [State.deciderInRange_iff, d]
  exact ⟨State.TrackerInRange.same h.1 e, h.2⟩

/-- R36: a state whose decider has been forced to SILENT. -/
theorem State.DeciderInRange.silenced {s t : State} (h : s.DeciderInRange) (e : t.tracker.settings = s.tracker.settings)
    (d : t.decider = ⟨.silent, 0⟩) : t.DeciderInRange := by
  rw [State.deciderInRange_iff, d]
  exact ⟨State.TrackerInRange.same h.1 e, Decider.silent_inRange⟩

theorem State.DeciderInRange.rateLoss {s : State} (h : s.DeciderInRange) : s.rateLoss.DeciderInRange :=
  h.silenced (by simp) (by simp [State.rateLoss_blocks])

theorem State.DeciderInRange.hop {s : State} (h : s.DeciderInRange) (a : Analysis) (o : RenderOrder) : (s.hop a o).DeciderInRange := by
  obtain ⟨settings, range⟩ := s.deciderInRange_iff.mp h
  rw [State.deciderInRange_iff, State.hop_decider]
  exact ⟨settings.same (by simp), deciderReport_inRange settings range _ _ a⟩

theorem State.DeciderInRange.measure {s : State} (h : s.DeciderInRange) (m : Nat) : (s.measure m).1.DeciderInRange := by
  simp only [State.measure]
  split
  next => simp only [State.measureAcquiring]; split <;> exact h.same (by simp) (by simp)
  next =>
    simp only [State.measureLocked]
    split
    next inside => exact h.same (by simp) (by simp)
    split
    next few => exact h
    next fourth => exact h.rateLoss
  next => exact h
  next => exact h

/-- R10, R11, R36: a frame absence silences the decider in LOCKED alone. -/
theorem State.DeciderInRange.rateAbsence {s : State} (h : s.DeciderInRange) : s.rateAbsence.DeciderInRange := by
  simp only [State.rateAbsence]
  split
  next locked => exact h.rateLoss
  all_goals exact h

theorem deciderInRange_kept : Kept State.DeciderInRange := by
  constructor
  case powerOn =>
    intro s sa _
    exact ⟨State.powerOn_trackerInRange sa, Decider.silent_inRange⟩
  case takeLearn =>
    intro s h
    rw [State.deciderInRange_iff, (State.takeLearn_frame s).2.2.1]
    exact ⟨trackerInRange_kept.takeLearn s h.1, h.2⟩
  case nextFrame =>
    intro s w b h
    rw [State.deciderInRange_iff] at h ⊢
    exact ⟨trackerInRange_kept.nextFrame s w b h.1, by simpa using h.2⟩
  case absence =>
    intro s h
    simp only [State.absence]
    split
    · exact State.DeciderInRange.rateAbsence (by exact h)
    · exact h
  case measurement =>
    intro s m a o h
    simp only [State.measurement]
    split
    next => exact h
    next n _ =>
    have measured := State.DeciderInRange.measure (s := { s with rate := { s.rate with run := some n } }) h m
    split
    · exact measured.hop a o
    · exact measured
  case tracker =>
    intro s b h
    rw [State.deciderInRange_iff] at h ⊢
    exact ⟨trackerInRange_kept.tracker s b h.1, by simpa using h.2⟩
  case learn =>
    intro s method h
    rw [State.deciderInRange_iff] at h ⊢
    exact ⟨trackerInRange_kept.learn s method h.1, by simpa using h.2⟩
  case restart => intro s h; exact h.silenced s.answerRestart_settings (by simp [State.answerRestart, answer, State.resetRuntime])
  all_goals intros; exact State.DeciderInRange.same ‹_› (by simp) (by simp)

/-- Settles O59: each group of settings, and the decider with the tracker settings, is kept by every operation that a step is made of. -/
theorem settingsAndDeciderStayInRange : Obligations.SettingsAndDeciderStayInRange := by
  intro s t e
  refine ⟨fun ⟨tracker, stale, lost, key, window, timeout⟩ => ?_, fun h => deciderInRange_kept.step s t h e⟩
  obtain ⟨stale', lost'⟩ := thresholdsInRange_kept.step s t ⟨stale, lost⟩ e
  exact ⟨trackerInRange_kept.step s t tracker e, stale', lost', keySettingsInRange_kept.step s t key e, windowInRange_kept.step s t window e,
    timeoutInRange_kept.step s t timeout e⟩

end Sys2Proof.Machine


/-! ## The gate learn (R23, R25) -/

namespace Sys2Proof.Machine

/-! ### LEARN -/

section
variable (s : State) {method : Byte}

theorem readLearnMethod_eq (b : Byte) :
    readLearnMethod b = if b = 0#8 ∨ b = 1#8 then some (if b = 0#8 then .peak else .average) else none := by
  by_cases zero : b = 0#8 <;> by_cases one : b = 1#8 <;> simp [readLearnMethod, zero, one]

theorem State.answerLearn_range (zero : method ≠ 0#8) (one : method ≠ 1#8) : s.answerLearn method = (s, .range, []) := by
  simp only [State.answerLearn, readLearnMethod_eq, if_neg (not_or.mpr ⟨zero, one⟩)]
  rfl

theorem State.answerLearn_notReady (known : method = 0#8 ∨ method = 1#8) (unlocked : s.rate.state ≠ .locked) :
    s.answerLearn method = (s, .notReady, []) := by
  simp only [State.answerLearn, readLearnMethod_eq, if_pos known, if_pos unlocked]
  rfl

theorem State.answerLearn_busy (known : method = 0#8 ∨ method = 1#8) (locked : s.rate.state = .locked) (learning : s.tracker.learn ≠ none) :
    s.answerLearn method = (s, .busy, []) := by
  have busy : s.tracker.learn.isSome = true := Option.isSome_iff_ne_none.mpr learning
  simp only [State.answerLearn, readLearnMethod_eq, if_pos known, if_neg (not_not_intro locked), if_pos busy]
  rfl

theorem State.answerLearn_accepted (known : method = 0#8 ∨ method = 1#8) (locked : s.rate.state = .locked) (free : s.tracker.learn = none) :
    s.answerLearn method =
      ({ s with tracker := { s.tracker with learn := some ⟨if method = 0#8 then .peak else .average, 0, 63, 0, 0⟩ } }, .accepted, []) := by
  simp only [State.answerLearn, readLearnMethod_eq, if_pos known, if_neg (not_not_intro locked), free]
  rfl

end

theorem State.Quiet.exec_learn {s t : State} (h : s.Quiet) {method : Byte} {code : ReplyCode} {data : List Byte}
    (answers : s.answerLearn method = (t, code, data)) : exec (.learn .panel method) s = .next (t.reply .panel ⟨0x41#8, code, data⟩) :=
  congrArg Host.Outcome.next (h.command_answers (src := .panel) (c := .learn) (body := fun u => u.answerLearn method) (by decide) answers)

/-! ### LEARN_COMPLETE -/

theorem exec_learnComplete (s : State) : exec .learnComplete s = .next s.takeLearn := rfl

theorem State.takeLearn_due {s : State} (h : s.due.learn = true) :
    s.takeLearn = State.completeLearn { s with due := { s.due with learn := false } } := if_pos h

theorem State.completeLearn_none {s : State} (h : s.tracker.learn = none) : s.completeLearn = s := by
  simp only [State.completeLearn, h]

/-- R25: a spread above 12 fails the learn. -/
theorem State.completeLearn_fails {s : State} {l : LearnRecord} (h : s.tracker.learn = some l) (wide : l.smallest + 12 < l.largest) :
    s.completeLearn = State.raise { s with tracker := { s.tracker with learn := none } } .learnFail := by
  simp only [State.completeLearn, h, if_pos wide]

/-- R25: a spread of at most 12 sets the gate. -/
theorem State.completeLearn_done {s : State} {l : LearnRecord} (h : s.tracker.learn = some l) (narrow : ¬l.smallest + 12 < l.largest) :
    s.completeLearn =
      State.raise { s with tracker := { s.tracker with learn := none, settings := { s.tracker.settings with gate := l.gate } } } .learnDone := by
  simp only [State.completeLearn, h, if_neg narrow]

theorem LearnRecord.gate_eq (l : LearnRecord) :
    l.gate = if l.method = .peak then min 63 (l.largest + 3) else min 63 (l.sum / 64 + 6) := by
  cases method : l.method <;> simp [LearnRecord.gate, method]

/-- Settles O19: each check answers in its turn, and the completion discards the record. -/
theorem learnMeasuresTheGate : Obligations.LearnMeasuresTheGate := by
  refine ⟨fun s method quiet => ⟨fun zero one => ?_, fun known => ⟨fun unlocked => ?_, fun locked learning => ?_, fun locked free => ?_⟩, ?_, ?_⟩,
    fun s off => ?_, fun s due free => ?_, fun s l learning => ⟨fun due wide => ?_, fun due narrow => ?_⟩⟩
  · exact quiet.exec_learn (s.answerLearn_range zero one)
  · exact quiet.exec_learn (s.answerLearn_notReady known unlocked)
  · exact quiet.exec_learn (s.answerLearn_busy known locked learning)
  · exact quiet.exec_learn (s.answerLearn_accepted known locked free)
  · exact quiet.exec_notPermitted (i := .learn .stage method) rfl (by decide)
  · exact quiet.exec_notPermitted (i := .learn .desk method) rfl (by decide)
  · rw [exec_learnComplete, State.takeLearn_not_due off]
  · rw [exec_learnComplete, State.takeLearn_due due, State.completeLearn_none (by exact free)]
  · rw [exec_learnComplete, State.takeLearn_due due, State.completeLearn_fails (l := l) (by exact learning) (by omega)]
    rfl
  · rw [exec_learnComplete, State.takeLearn_due due, State.completeLearn_done (l := l) (by exact learning) (by omega), LearnRecord.gate_eq]
    rfl

end Sys2Proof.Machine


/-! ## Level, pitch and ratio codes as real formulas (R17, R18, R134) -/

namespace Sys2Proof.Machine

/-! ### Powers compared by their logarithms -/

/-- A comparison of products of powers, as the whole-number tests of the codes have it, is a bound on the logarithm of the ratio. -/
theorem pow_mul_pow_le_iff {b c d : ℕ} (base : 1 < b) (hc : 0 < c) (hd : 0 < d) (p q e : ℕ) :
    b ^ p * d ^ e ≤ c ^ e * b ^ q ↔ (p : ℝ) ≤ e * Real.logb b ((c : ℝ) / d) + q := by
  have base' : (1 : ℝ) < b := by exact_mod_cast base
  have hb : (0 : ℝ) < b := one_pos.trans base'
  have hc' : (0 : ℝ) < c := by exact_mod_cast hc
  have hd' : (0 : ℝ) < d := by exact_mod_cast hd
  have ratio : Real.logb b ((c : ℝ) / d) = Real.logb b c - Real.logb b d := Real.logb_div hc'.ne' hd'.ne'
  have left : Real.logb b ((b : ℝ) ^ p * (d : ℝ) ^ e) = p + e * Real.logb b d := by
    rw [Real.logb_mul (by positivity) (by positivity), Real.logb_pow, Real.logb_pow, Real.logb_self_eq_one base', mul_one]
  have right : Real.logb b ((c : ℝ) ^ e * (b : ℝ) ^ q) = e * Real.logb b c + q := by
    rw [Real.logb_mul (by positivity) (by positivity), Real.logb_pow, Real.logb_pow, Real.logb_self_eq_one base', mul_one]
  rw [← Nat.cast_le (α := ℝ)]
  push_cast
  rw [← Real.logb_le_logb base' (by positivity) (by positivity), left, right, ratio, mul_sub]
  constructor <;> intro h <;> linarith

theorem twoTo_eq (e : ℕ) : twoTo e = 2 ^ e := by
  rw [twoTo, ← pow_mul, ← pow_add, Nat.div_add_mod']

/-- R18: the test of the raw code's search. -/
theorem twoTo_mul_pow768_le_iff {c d : ℕ} (hc : 0 < c) (hd : 0 < d) (p q : ℕ) :
    twoTo p * pow768 d ≤ pow768 c * twoTo q ↔ (p : ℝ) ≤ 768 * Real.logb 2 ((c : ℝ) / d) + q := by
  rw [twoTo_eq, twoTo_eq, pow768, pow768, ← pow_mul, ← pow_mul]
  exact_mod_cast pow_mul_pow_le_iff (b := 2) (by norm_num) hc hd p q (3 * 256)

/-- R134: the test of the ratio code's search. -/
theorem pow384_le_twoTo_iff {d : ℕ} (hd : 0 < d) (q : ℕ) : pow384 d ≤ twoTo q ↔ 384 * Real.logb 2 d ≤ q := by
  have compared (e : ℕ) : d ^ e ≤ 2 ^ q ↔ e * Real.logb 2 d ≤ q := by
    have h := pow_mul_pow_le_iff (b := 2) (c := 1) (by norm_num) one_pos hd 0 q e
    simp only [pow_zero, one_pow, one_mul, Nat.cast_zero, Nat.cast_one, one_div, Real.logb_inv, Nat.cast_ofNat] at h
    rw [h]
    constructor <;> intro le <;> linarith
  rw [twoTo_eq, pow384, ← pow_mul]
  exact_mod_cast compared (3 * 128)

/-! ### The bitwise search -/

/-- A search from the highest bit down that keeps a bit while the number stays within `target` ends at `target`. -/
theorem foldl_bits_eq {keep : ℕ → ℕ → ℕ} {target : ℕ} (h : ∀ k b, keep k b = if k + 2 ^ b ≤ target then k + 2 ^ b else k) (n : ℕ) :
    ∀ k, k ≤ target → target < k + 2 ^ n → (List.range n).reverse.foldl keep k = target := by
  induction n with
  | zero => intro k low high; simp at high ⊢; omega
  | succ n ih =>
    intro k low high
    rw [List.range_succ, List.reverse_append, List.reverse_singleton, List.singleton_append, List.foldl_cons, h]
    rw [pow_succ] at high
    split
    next within => exact ih _ within (by omega)
    next above => exact ih _ low (by omega)

/-! ### Level codes (R17) -/

/-- R17: how far a peak lies below full scale, in dB. -/
noncomputable def attenuation (peak : ℕ) : ℝ := -20 * Real.logb 10 ((peak : ℝ) / 8388607)

/-- R17: a step is 1.5 dB. -/
theorem attenuation_steps (peak : ℕ) : attenuation peak / 1.5 = 2 * attenuation peak / 3 := by
  norm_num
  ring

theorem atLeastSteps_iff {peak : ℕ} (h : 0 < peak) (k : ℕ) : atLeastSteps peak k = true ↔ (k : ℝ) ≤ attenuation peak / 1.5 := by
  have powers : peak ^ 40 * 1000 ^ k = 10 ^ (3 * k) * peak ^ 40 := by
    rw [pow_mul, mul_comm]; norm_num
  have compared := pow_mul_pow_le_iff (b := 10) (c := fullScale) (by norm_num) (by norm_num [fullScale]) h (3 * k) 0 40
  have inverse : Real.logb 10 ((fullScale : ℝ) / peak) = -Real.logb 10 ((peak : ℝ) / 8388607) := by
    rw [← Real.logb_inv, inv_div]; norm_num [fullScale]
  rw [pow_zero, mul_one, ← powers] at compared
  push_cast at compared
  rw [atLeastSteps, decide_eq_true_iff, compared, inverse, attenuation_steps, attenuation]
  constructor <;> intro le <;> linarith

/-- Counting down from `n` steps finds the whole steps of an attenuation below n + 1 steps. -/
theorem attenuationSteps_eq_floor {peak : ℕ} {x : ℝ} (steps : ∀ k : ℕ, atLeastSteps peak k = true ↔ (k : ℝ) ≤ x) (nonneg : 0 ≤ x) (n : ℕ)
    (below : x < n + 1) : attenuationSteps peak n = ⌊x⌋₊ := by
  induction n with
  | zero => exact (Nat.floor_eq_zero.mpr (by simpa using below)).symm
  | succ n ih =>
    rw [attenuationSteps]
    split
    next reached => exact ((Nat.floor_eq_iff nonneg).mpr ⟨(steps _).mp reached, by simpa using below⟩).symm
    next short =>
      rw [steps, not_le] at short
      exact ih (by simpa using short)

theorem attenuation_nonneg {peak : ℕ} (fits : peak ≤ 8388607) : 0 ≤ attenuation peak := by
  have ratio : (peak : ℝ) / 8388607 ≤ 1 := (div_le_one (by norm_num)).mpr (by exact_mod_cast fits)
  have log : Real.logb 10 ((peak : ℝ) / 8388607) ≤ 0 := Real.logb_nonpos (by norm_num) (by positivity) ratio
  rw [attenuation]
  linarith

/-- R17: a zero peak, or one 93 dB below full scale. -/
theorem levelCode_silent {peak : ℕ} (h : peak = 0 ∨ 93 ≤ attenuation peak) : levelCode peak = 0 := by
  refine if_pos ((Nat.eq_zero_or_pos peak).imp_right fun pos => (atLeastSteps_iff pos 62).mpr ?_)
  have faint := h.resolve_left pos.ne'
  rw [attenuation_steps]
  push_cast
  linarith

/-- R17: otherwise the whole steps of 1.5 dB come off 63. -/
theorem levelCode_sounding {peak : ℕ} (fits : peak ≤ 8388607) (pos : peak ≠ 0) (loud : attenuation peak < 93) :
    (levelCode peak : ℤ) = 63 - ⌊attenuation peak / 1.5⌋ := by
  have steps := atLeastSteps_iff (Nat.pos_of_ne_zero pos)
  have nonneg : 0 ≤ attenuation peak / 1.5 := div_nonneg (attenuation_nonneg fits) (by norm_num)
  have below : attenuation peak / 1.5 < 62 := by rw [attenuation_steps]; linarith
  have counted := attenuationSteps_eq_floor steps nonneg 61 (by push_cast; linarith)
  have few : ⌊attenuation peak / 1.5⌋₊ < 62 := (Nat.floor_lt nonneg).mpr (by exact_mod_cast below)
  have fewer : ¬(peak = 0 ∨ atLeastSteps peak 62 = true) := by
    rw [steps]; push_cast; exact not_or.mpr ⟨pos, not_le.mpr below⟩
  rw [levelCode, if_neg fewer, counted, ← Int.natCast_floor_eq_floor nonneg]
  omega

/-! ### Raw codes (R18) -/

/-- R18: the raw code before it is rounded down, for a period of `d` = 11 · Nrate · P16. -/
noncomputable def rawReal (d : ℕ) : ℝ := 1440 + 384 * Real.logb 2 (1258291200 / (d : ℝ)) + 1 / 2

/-- R18: the search test for a code of `m`, kept 1024 too high. -/
theorem rawTest_iff {d : ℕ} (h : 0 < d) (m : ℕ) :
    twoTo (2 * m) * pow768 d ≤ pow768 1258291200 * twoTo 4929 ↔ (m : ℝ) ≤ rawReal d + 1024 := by
  rw [twoTo_mul_pow768_le_iff (by norm_num) h, rawReal]
  push_cast
  constructor <;> intro le <;> linarith

/-- R16, R18: over the ranges of Nrate and P16 the search covers the code: f / 440 lies within 1/64 to 128. -/
theorem rawReal_range {d : ℕ} (short : 11 * 2 ^ 20 ≤ d) (long : d ≤ 11 * 2 ^ 32) : 0 ≤ rawReal d + 1024 ∧ rawReal d + 1024 < 8192 := by
  have short' : (11 * 2 ^ 20 : ℝ) ≤ d := by exact_mod_cast short
  have long' : (d : ℝ) ≤ 11 * 2 ^ 32 := by exact_mod_cast long
  have pos : (0 : ℝ) < d := lt_of_lt_of_le (by norm_num) short'
  have low : (-6 : ℝ) ≤ Real.logb 2 (1258291200 / (d : ℝ)) := by
    rw [Real.le_logb_iff_rpow_le (by norm_num) (by positivity), le_div_iff₀ pos]
    norm_num
    linarith
  have high : Real.logb 2 (1258291200 / (d : ℝ)) ≤ 7 := by
    rw [Real.logb_le_iff_le_rpow (by norm_num) (by positivity), div_le_iff₀ pos]
    norm_num
    linarith
  rw [rawReal]
  constructor <;> linarith

theorem rawCode_eq_floor {nrate p16 : ℕ} (short : 11 * 2 ^ 20 ≤ 11 * nrate * p16) (long : 11 * nrate * p16 ≤ 11 * 2 ^ 32) :
    rawCode nrate p16 = ⌊rawReal (11 * nrate * p16)⌋ := by
  obtain ⟨nonneg, top⟩ := rawReal_range short long
  have bit (k b : ℕ) : rawBit nrate p16 k b = if k + 2 ^ b ≤ ⌊rawReal (11 * nrate * p16) + 1024⌋₊ then k + 2 ^ b else k := by
    have test := rawTest_iff (d := 11 * nrate * p16) (by omega) (k + 2 ^ b)
    rw [← Nat.le_floor_iff nonneg] at test
    exact if_congr test rfl rfl
  have found := foldl_bits_eq bit 13 0 (Nat.zero_le _) ((Nat.floor_lt nonneg).mpr (by norm_num at top ⊢; exact top))
  have searched : rawCode nrate p16 = ((List.range 13).reverse.foldl (rawBit nrate p16) 0 : ℕ) - 1024 := rfl
  have floor : ((⌊rawReal (11 * nrate * p16) + 1024⌋₊ : ℕ) : ℤ) = ⌊rawReal (11 * nrate * p16)⌋ + 1024 := by
    rw [Int.natCast_floor_eq_floor nonneg]; exact_mod_cast Int.floor_add_natCast _ 1024
  rw [searched, found, floor, add_sub_cancel_right]

/-! ### Ratio codes (R134) -/

/-- R134: the ratio code before it is rounded down. -/
noncomputable def ratioReal (shift : ℤ) : ℝ := 16384 * (2 : ℝ) ^ ((shift : ℝ) / 384) + 1 / 2

/-- R134: the search test for a code of `n`, which is at least 1. -/
theorem ratioTest_iff {shift : ℤ} (low : -5760 ≤ shift) {n : ℕ} (pos : 0 < n) :
    pow384 (2 * n - 1) ≤ twoTo (5760 + shift).toNat ↔ (n : ℝ) ≤ ratioReal shift := by
  have odd : ((2 * n - 1 : ℕ) : ℝ) = 2 * n - 1 := by rw [Nat.cast_sub (by omega)]; push_cast; ring
  have oddPos : (0 : ℝ) < 2 * n - 1 := by rw [← odd]; exact_mod_cast (by omega : 0 < 2 * n - 1)
  have exponent : (((5760 + shift).toNat : ℕ) : ℝ) = 5760 + shift := by
    exact_mod_cast congrArg (Int.cast (R := ℝ)) (Int.toNat_of_nonneg (by omega : 0 ≤ 5760 + shift))
  have power : (2 : ℝ) ^ (15 + (shift : ℝ) / 384) = 32768 * (2 : ℝ) ^ ((shift : ℝ) / 384) := by
    rw [Real.rpow_add (by norm_num)]; norm_num
  have logs : pow384 (2 * n - 1) ≤ twoTo (5760 + shift).toNat ↔ Real.logb 2 (2 * n - 1) ≤ 15 + (shift : ℝ) / 384 := by
    rw [pow384_le_twoTo_iff (by omega), odd, exponent]
    constructor <;> intro le <;> linarith
  rw [logs, Real.logb_le_iff_le_rpow (by norm_num) oddPos, power, ratioReal]
  constructor <;> intro le <;> linarith

theorem ratioReal_range {shift : ℤ} (high : shift ≤ 768) : 0 ≤ ratioReal shift ∧ ratioReal shift < 131072 := by
  have octaves : (shift : ℝ) / 384 ≤ 2 := by
    have : (shift : ℝ) ≤ 768 := by exact_mod_cast high
    linarith
  have power : (2 : ℝ) ^ ((shift : ℝ) / 384) ≤ (2 : ℝ) ^ (2 : ℝ) := Real.rpow_le_rpow_of_exponent_le (by norm_num) octaves
  have pos : (0 : ℝ) < (2 : ℝ) ^ ((shift : ℝ) / 384) := by positivity
  norm_num at power
  rw [ratioReal]
  constructor <;> linarith

theorem ratioCode_eq_floor {shift : ℤ} (low : -5760 ≤ shift) (high : shift ≤ 768) : (ratioCode shift : ℤ) = ⌊ratioReal shift⌋ := by
  obtain ⟨nonneg, top⟩ := ratioReal_range high
  have bit (k b : ℕ) : ratioBit (5760 + shift).toNat k b = if k + 2 ^ b ≤ ⌊ratioReal shift⌋₊ then k + 2 ^ b else k := by
    have test := ratioTest_iff low (n := k + 2 ^ b) (by positivity)
    rw [← Nat.le_floor_iff nonneg] at test
    exact if_congr test rfl rfl
  have found := foldl_bits_eq bit 17 0 (Nat.zero_le _) ((Nat.floor_lt nonneg).mpr (by norm_num at top ⊢; exact top))
  have searched : ratioCode shift = (List.range 17).reverse.foldl (ratioBit (5760 + shift).toNat) 0 := rfl
  rw [searched, found, Int.natCast_floor_eq_floor nonneg]

/-- R18: the quotient f / 440. -/
theorem pitchQuotient_eq (nrate p16 : ℕ) :
    (12288000 * 256 * 16 / ((nrate : ℝ) * p16)) / 440 = 1258291200 / ((11 * nrate * p16 : ℕ) : ℝ) := by
  push_cast
  rw [div_div, show (nrate : ℝ) * p16 * 440 = 40 * (11 * nrate * p16) by ring, ← div_div]
  norm_num

/-- Settles O12: each code is the floor of its formula, found by counting steps or by the bitwise search. -/
theorem codesAreTheRealFormulas : Obligations.CodesAreTheRealFormulas := by
  refine ⟨fun peak fits => ⟨levelCode_silent, levelCode_sounding fits⟩, fun nrate p16 trim nrateLow nrateHigh p16Low p16High => ⟨?_, rfl⟩,
    fun shift low high => ratioCode_eq_floor (by omega) high⟩
  have short : 32768 * 32 ≤ nrate * p16 := Nat.mul_le_mul nrateLow p16Low
  have long : nrate * p16 ≤ 131071 * 32768 := Nat.mul_le_mul nrateHigh p16High
  rw [pitchQuotient_eq]
  exact rawCode_eq_floor (by rw [mul_assoc]; omega) (by rw [mul_assoc]; omega)

end Sys2Proof.Machine


/-! ## The lock mask guards the switches (R62 to R65) -/

namespace Sys2Proof.Machine

/-! ### Operations that write neither the switch word nor the lock mask -/

/-- R62, R65: the switch word and the lock mask of a context. -/
def Context.words (c : Context) : BitVec 8 × BitVec 8 := (c.switches, c.lockMask)

@[simp] theorem Context.words_key (c : Context) (f : Field (Fin 12)) : Context.words { c with key := f } = c.words := rfl
@[simp] theorem Context.words_scale (c : Context) (f : Field (Fin 8)) : Context.words { c with scale := f } = c.words := rfl
@[simp] theorem Context.words_chord (c : Context) (f : Field (Option Chord)) : Context.words { c with chord := f } = c.words := rfl
@[simp] theorem Context.words_hush (c : Context) (h : Option Manual) : Context.words { c with hush := h } = c.words := rfl
@[simp] theorem Context.words_lineCond (c : Context) (l : LineCondition) : Context.words { c with lineCond := l } = c.words := rfl

@[simp] theorem State.writeKey_words (s : State) (v : Fin 12) (x : Source) (p : Bool) : (s.writeKey v x p).1.ctx.words = s.ctx.words := by
  simp [State.writeKey]

@[simp] theorem State.writeScale_words (s : State) (v : Fin 8) (x : Source) (p : Bool) : (s.writeScale v x p).1.ctx.words = s.ctx.words := by
  simp [State.writeScale]

@[simp] theorem State.writeChord_words (s : State) (v : Option Chord) (x : Source) (p : Bool) : (s.writeChord v x p).1.ctx.words = s.ctx.words := by
  simp [State.writeChord]

@[simp] theorem State.autoKey_words (s : State) (v : Fin 12) (a : Auto) : (s.autoKey v a).ctx.words = s.ctx.words := s.writeKey_words v _ _
@[simp] theorem State.autoScale_words (s : State) (v : Fin 8) (a : Auto) : (s.autoScale v a).ctx.words = s.ctx.words := s.writeScale_words v _ _
@[simp] theorem State.autoChord_words (s : State) (v : Option Chord) (a : Auto) : (s.autoChord v a).ctx.words = s.ctx.words :=
  s.writeChord_words v _ _

@[simp] theorem State.writeStepFields_words (s : State) (c : CueStep) : (s.writeStepFields c).ctx.words = s.ctx.words := by
  simp only [State.writeStepFields]; (repeat' split) <;> simp

@[simp] theorem State.takeProposal_words (s : State) : s.takeProposal.ctx.words = s.ctx.words := by
  simp only [State.takeProposal]; split <;> simp

@[simp] theorem State.takeHead_words (s : State) (t : Trigger) : (s.takeHead t).ctx.words = s.ctx.words := by
  simp only [State.takeHead]; split <;> simp

@[simp] theorem State.noteOff_words (s : State) (n : Nat) : (s.noteOff n).ctx.words = s.ctx.words := by
  simp [State.noteOff]

@[simp] theorem State.takeNoteOff_words (s : State) : s.takeNoteOff.ctx.words = s.ctx.words := by
  simp only [State.takeNoteOff]; split <;> simp

@[simp] theorem State.breakAction_words (s : State) : s.breakAction.ctx.words = s.ctx.words := by
  simp only [State.breakAction]; split <;> simp

@[simp] theorem State.lossActions_words (s : State) (c : LineCondition) : (s.lossActions c).ctx.words = s.ctx.words := by
  cases c <;> simp [State.lossActions]

@[simp] theorem State.handCondition_words (s : State) (c : LineCondition) : (s.handCondition c).ctx.words = s.ctx.words := by
  simp only [State.handCondition]; split <;> simp

@[simp] theorem State.deriveCondition_words (s : State) : s.deriveCondition.ctx.words = s.ctx.words := s.handCondition_words _

@[simp] theorem State.takeSilence_words (s : State) : s.takeSilence.ctx.words = s.ctx.words := by
  simp only [State.takeSilence]; split <;> simp

@[simp] theorem State.chordNow_words (s : State) (v : Option Chord) : (s.chordNow v).ctx.words = s.ctx.words := by
  simp [State.chordNow]

@[simp] theorem State.chordAt_words (s : State) (v : Option Chord) (a : ApplyAt) : (s.chordAt v a).ctx.words = s.ctx.words := by
  cases a <;> simp [State.chordAt]

@[simp] theorem State.frameContent_words (s : State) (c : FrameContent) : (s.frameContent c).ctx.words = s.ctx.words := by
  cases c <;> simp [State.frameContent]

@[simp] theorem State.validFrame_words (s : State) (c : FrameContent) : (s.validFrame c).ctx.words = s.ctx.words := by
  simp only [State.validFrame]; split <;> simp

@[simp] theorem State.completeFrame_words (s : State) (k : FrameKind) (d : List Byte) : (s.completeFrame k d).ctx.words = s.ctx.words := by
  simp only [State.completeFrame]; split <;> simp

@[simp] theorem State.takeHeader_words (s : State) (v : Byte) : (s.takeHeader v).ctx.words = s.ctx.words := by
  simp only [State.takeHeader]; (repeat' split) <;> simp

@[simp] theorem State.huntChar_words (s : State) (c : LineChar) : (s.huntChar c).ctx.words = s.ctx.words := by
  simp only [State.huntChar]; (repeat' split) <;> simp

@[simp] theorem State.frameChar_words (s : State) (k : FrameKind) (n : Nat) (d : List Byte) (c : LineChar) :
    (s.frameChar k n d c).ctx.words = s.ctx.words := by
  simp only [State.frameChar]; (repeat' split) <;> simp

@[simp] theorem State.takeChar_words (s : State) : s.takeChar.ctx.words = s.ctx.words := by
  simp only [State.takeChar]; (repeat' split) <;> simp

@[simp] theorem State.drain_words (n : Nat) (s : State) : (State.drain n s).ctx.words = s.ctx.words := by
  induction n generalizing s with
  | zero => rfl
  | succ n ih => simp [State.drain, ih]

@[simp] theorem State.receive_words (s : State) (c : LineChar) : (s.receive c).ctx.words = s.ctx.words := by
  simp only [State.receive]; split <;> simp

@[simp] theorem State.character_words (s : State) (s1 s2 s3 : BitVec 12) : (s.character s1 s2 s3).ctx.words = s.ctx.words := by
  simp only [State.character]; (repeat' split) <;> simp

@[simp] theorem State.lineBreak_words (s : State) : s.lineBreak.ctx.words = s.ctx.words := by
  simp only [State.lineBreak]; split <;> simp

@[simp] theorem State.matchOutcome_words (s : State) (m : Match) : (s.matchOutcome m).ctx.words = s.ctx.words := by
  simp only [State.matchOutcome]; (repeat' split) <;> simp

@[simp] theorem State.matchEnd_words (s : State) : s.matchEnd.ctx.words = s.ctx.words := by
  simp only [State.matchEnd]; split <;> simp

@[simp] theorem State.lineChanged_words (s : State) (o : LineSettings) : (s.lineChanged o).ctx.words = s.ctx.words := by
  simp only [State.lineChanged, State.disableLine, State.enableLine]; (repeat' split) <;> simp

@[simp] theorem State.lineThresholds_words (s : State) : s.lineThresholds.ctx.words = s.ctx.words := by
  simp only [State.lineThresholds]; split <;> simp

@[simp] theorem State.answerLine_words (s : State) (b : LineBytes) (e : Option Bool) : (s.answerLine b e).1.ctx.words = s.ctx.words := by
  simp only [State.answerLine, answer]; split <;> simp

@[simp] theorem State.answerSetkey_words (s : State) (src : Manual) (t p : Byte) : (s.answerSetkey src t p).1.ctx.words = s.ctx.words := by
  simp only [State.answerSetkey, answer]; split <;> simp

@[simp] theorem State.answerSetscale_words (s : State) (src : Manual) (k p : Byte) : (s.answerSetscale src k p).1.ctx.words = s.ctx.words := by
  simp only [State.answerSetscale, answer]; (repeat' split) <;> simp

@[simp] theorem State.answerSetchord_words (s : State) (src : Manual) (p : Byte) (b : ChordBytes) :
    (s.answerSetchord src p b).1.ctx.words = s.ctx.words := by
  simp only [State.answerSetchord, State.answerChordWrite, answer]; (repeat' split) <;> simp

@[simp] theorem State.answerUnpin_words (s : State) (src : Manual) (f : Byte) : (s.answerUnpin src f).1.ctx.words = s.ctx.words := by
  simp only [State.answerUnpin, unpinAnswer, answer]; (repeat' split) <;> simp

@[simp] theorem State.answerHush_words (s : State) (src : Manual) : (s.answerHush src).1.ctx.words = s.ctx.words := by
  simp only [State.answerHush]; split <;> simp

@[simp] theorem State.answerResume_words (s : State) (src : Manual) : (s.answerResume src).1.ctx.words = s.ctx.words := by
  simp only [State.answerResume, answer]; (repeat' split) <;> simp

/-! ### Switch writes that the lock mask guards -/

/-- R65: every switch that the mask of `c` locks stands in `d` as in `c`. -/
def Context.KeepsLocked (c d : Context) : Prop := ∀ i, c.lockMask.getLsbD i = true → d.switches.getLsbD i = c.switches.getLsbD i

/-- R65: `d` has the lock mask of `c`, and the switches that it locks. -/
def Context.Guards (c d : Context) : Prop := d.lockMask = c.lockMask ∧ c.KeepsLocked d

theorem Context.Guards.refl (c : Context) : c.Guards c := ⟨rfl, fun _ _ => rfl⟩

theorem Context.Guards.keeps {c d e : Context} (h : c.Guards d) (k : d.KeepsLocked e) : c.KeepsLocked e :=
  fun i locked => (k i (h.1 ▸ locked)).trans (h.2 i locked)

theorem Context.Guards.trans {c d e : Context} (h : c.Guards d) (k : d.Guards e) : c.Guards e := ⟨k.1.trans h.1, h.keeps k.2⟩

theorem Context.Guards.of_words {c d : Context} (h : d.words = c.words) : c.Guards d := by
  obtain ⟨switches, lockMask⟩ := Prod.mk.inj h
  exact ⟨lockMask, fun i _ => by rw [switches]⟩

theorem Context.Guards.same {c d : Context} (h : d = c) : c.Guards d := h ▸ .refl c

@[simp] theorem State.setSwitches_ctx (s : State) (w : BitVec 8) : (s.setSwitches w).ctx = { s.ctx with switches := w } := by
  simp only [State.setSwitches]; split <;> simp

@[simp] theorem State.writeStepSwitches_ctx (s : State) (c : CueStep) :
    (s.writeStepSwitches c).ctx = { s.ctx with switches := cueSwitchWord s.ctx.switches s.ctx.lockMask c.setMask c.clearMask } :=
  s.setSwitches_ctx _

/-- R64: a cue step's masks pass the locked switches by. -/
theorem State.stepWritten_guards (s : State) (c : CueStep) : s.ctx.Guards ((s.writeStepFields c).writeStepSwitches c).ctx := by
  refine .trans (.of_words (s.writeStepFields_words c)) ⟨by simp, fun i locked => ?_⟩
  rw [State.writeStepSwitches_ctx, cueSwitchWord_bit _ _ _ _ (BitVec.lt_of_getLsbD locked), if_pos locked]

theorem State.enterStep_guards (s : State) (k : Fin 64) : s.ctx.Guards (s.enterStep k).ctx := by
  simpa [State.enterStep] using s.stepWritten_guards (s.tables.cueStep k)

theorem State.enterStepHeld_guards (s : State) (k : Fin 64) : s.ctx.Guards (s.enterStepHeld k).ctx := by
  simpa [State.enterStepHeld] using s.stepWritten_guards (s.tables.cueStep k)

theorem State.advance_guards (s : State) : s.ctx.Guards s.advance.ctx := by
  simp only [State.advance]
  split
  · exact .refl _
  split
  · exact s.enterStep_guards _
  · exact .same (by simp)

theorem State.cueOnset_guards (s : State) : s.ctx.Guards s.cueOnset.ctx := by
  simp only [State.cueOnset, State.advanceHeld]
  (repeat' split) <;> first
    | exact .refl _
    | exact s.enterStepHeld_guards _

theorem State.noteStart_guards (s : State) (k : PublicationKind) : s.ctx.Guards (s.noteStart k).ctx := by
  have cued := (s.takeHead .onset).cueOnset_guards
  simpa [State.noteStart] using Context.Guards.trans (.of_words (s.takeHead_words .onset)) cued

theorem State.takeNoteStart_guards (s : State) : s.ctx.Guards s.takeNoteStart.ctx := by
  simp only [State.takeNoteStart]
  split
  · exact s.noteStart_guards _
  · exact .refl _

theorem State.takeDwell_guards (s : State) : s.ctx.Guards s.takeDwell.ctx := by
  simp only [State.takeDwell]
  split
  · exact State.advance_guards { s with due := { s.due with dwell := false } }
  · exact .refl _

/-- R63: a SWITCHES write of a source that the mask binds. -/
theorem State.switchWrite_guards {s : State} {w : BitVec 8} (masked : BitVec 8)
    (h : ∀ i, s.ctx.lockMask.getLsbD i = true → w.getLsbD i = s.ctx.switches.getLsbD i) : s.ctx.Guards (s.switchWrite w masked).1.ctx :=
  ⟨by simp [State.switchWrite], fun i locked => by simpa [State.switchWrite] using h i locked⟩

theorem freeSwitches_locked {lock : BitVec 8} {src : Manual} (bound : src ≠ .desk) {i : Nat} (locked : lock.getLsbD i = true) :
    (freeSwitches lock src).getLsbD i = false := by
  simp [freeSwitches, bound, locked]

theorem State.answerPut_guards {src : Manual} (bound : src ≠ .desk) (s : State) (arg : Byte) : s.ctx.Guards (s.answerPut src arg).1.ctx :=
  switchWrite_guards _ fun i locked => by
    simp only [BitVec.getLsbD_or, BitVec.getLsbD_and, BitVec.getLsbD_not, freeSwitches_locked bound locked, BitVec.lt_of_getLsbD locked]
    simp

theorem State.answerSet_guards {src : Manual} (bound : src ≠ .desk) (s : State) (arg : Byte) : s.ctx.Guards (s.answerSet src arg).1.ctx :=
  switchWrite_guards _ fun i locked => by
    simp [freeSwitches_locked bound locked]

theorem State.answerClear_guards {src : Manual} (bound : src ≠ .desk) (s : State) (arg : Byte) : s.ctx.Guards (s.answerClear src arg).1.ctx :=
  switchWrite_guards _ fun i locked => by
    simp only [BitVec.getLsbD_and, BitVec.getLsbD_not, freeSwitches_locked bound locked, BitVec.lt_of_getLsbD locked]
    simp

theorem State.answerCuenext_guards (s : State) : s.ctx.Guards s.answerCuenext.1.ctx := by
  simp only [State.answerCuenext, navigated, answer]
  (repeat' split) <;> first
    | exact s.enterStep_guards _
    | exact .same (by simp)

theorem State.answerCueprev_guards (s : State) : s.ctx.Guards s.answerCueprev.1.ctx := by
  simp only [State.answerCueprev, navigated, answer]
  (repeat' split) <;> first
    | exact s.enterStep_guards _
    | exact .refl _

theorem State.answerCuegoto_guards (s : State) (k : Byte) : s.ctx.Guards (s.answerCuegoto k).1.ctx := by
  simp only [State.answerCuegoto, navigated, answer]
  (repeat' split) <;> first
    | exact s.enterStep_guards _
    | exact .refl _

/-! ### The completions of a hop -/

theorem State.completeFirst_guards (s : State) : s.ctx.Guards s.completeFirst.ctx := by
  have start := s.takeLearn.takeHowl.takeRecovery.takeNoteStart_guards
  simp only [State.takeRecovery_frame, State.takeHowl_frame, State.takeLearn_frame] at start
  exact start.trans (.of_words (State.takeNoteOff_words _))

theorem State.completeLast_guards (s : State) : s.ctx.Guards s.completeLast.ctx :=
  s.takeDwell_guards.trans (.of_words (by simp [State.completeLast]))

theorem State.evaluated_guards (s : State) : s.ctx.Guards s.evaluated.ctx :=
  s.completeFirst_guards.trans (.trans (.same (by simp)) s.completeFirst.takeEvaluation.completeLast_guards)

theorem State.takeProposal_guards (s : State) : s.ctx.Guards s.takeProposal.ctx := .of_words s.takeProposal_words

theorem State.complete_guards (s : State) : s.ctx.Guards s.complete.ctx := s.evaluated_guards.trans (State.takeProposal_guards _)

theorem State.completeButDecay_guards (s : State) : s.ctx.Guards s.completeButDecay.ctx :=
  s.completeFirst_guards.trans (s.completeFirst.completeLast_guards.trans (State.takeProposal_guards _))

theorem State.meeting_guards (s : State) (f : State → State) (h : ∀ t : State, t.ctx.Guards (f t).ctx) : s.ctx.Guards (s.meeting f).ctx :=
  s.evaluated_guards.trans ((h _).trans (State.takeProposal_guards _))

theorem State.releaseProposal_guards (s : State) : s.ctx.Guards s.releaseProposal.ctx := by
  obtain ⟨_, e⟩ | ⟨_, e⟩ := s.releaseProposal_cases <;> rw [e]
  · exact .refl _
  · exact s.takeProposal_guards

theorem State.settleRow_guards (s : State) : s.ctx.Guards s.settleRow.ctx := by
  simp only [State.settleRow]
  split
  · exact s.takeNoteStart_guards.trans (State.releaseProposal_guards _)
  · exact .refl _

theorem State.dwellRow_guards (s : State) : s.ctx.Guards s.dwellRow.ctx := by
  simp only [State.dwellRow]
  split
  · exact s.takeDwell_guards.trans (State.releaseProposal_guards _)
  · exact .refl _

theorem State.decayRow_guards (s : State) : s.ctx.Guards s.decayRow.ctx := by
  simp only [State.decayRow]
  split
  · exact .trans (.same (by simp)) (State.releaseProposal_guards _)
  · exact .refl _

/-! ### Records and transactions -/

/-- R167: a record acts at most as its owning block does. -/
theorem State.decoded_guards (s : State) (src : Manual) (c : Cmd) {body : State → Answer} (h : s.ctx.Guards (body s).1.ctx) :
    s.ctx.Guards (s.decoded src c body).ctx := by
  simp only [State.decoded]
  split
  · simpa using h
  · exact .same (by simp)

theorem State.command_guards (s : State) (src : Manual) (c : Cmd) {body : State → Answer} (h : ∀ t : State, t.ctx.Guards (body t).1.ctx) :
    s.ctx.Guards (s.command src c body).ctx := s.complete_guards.trans (State.decoded_guards _ src c (h _))

theorem State.commandMeeting_guards (s : State) (src : Manual) (c : Cmd) {body : State → Answer} (h : ∀ t : State, t.ctx.Guards (body t).1.ctx) :
    s.ctx.Guards (s.commandMeeting src c body).ctx := s.meeting_guards _ fun t => t.decoded_guards src c (h t)

theorem State.commandTracking_guards (s : State) (src : Manual) (c : Cmd) {body : State → Answer} (h : ∀ t : State, t.ctx.Guards (body t).1.ctx) :
    s.ctx.Guards (s.commandTracking src c body).ctx := s.completeButDecay_guards.trans (State.decoded_guards _ src c (h _))

/-- R65: LOCKSW, from any source and state, leaves the switch word as the completions before it left it. -/
theorem State.cmdLocksw_keepsLocked (s : State) (src : Manual) (mask : Byte) : s.ctx.KeepsLocked (s.cmdLocksw src mask).ctx := by
  refine s.complete_guards.keeps fun i _ => ?_
  simp only [State.cmdLocksw, State.command, State.decoded, State.answerLocksw]
  split <;> simp

/-- R65: a routed command that is no SWITCHES of DESK and no RESTART. -/
theorem State.route_keepsLocked (s : State) {i : Instr} (h : i.mayChangeLocked = false) : s.ctx.KeepsLocked (s.route i).ctx := by
  cases i
  case locksw src mask => exact s.cmdLocksw_keepsLocked src mask
  case switchesPut src arg => exact (s.command_guards src _ fun t => t.answerPut_guards (by simpa [Instr.mayChangeLocked] using h) arg).2
  case switchesSet src arg => exact (s.command_guards src _ fun t => t.answerSet_guards (by simpa [Instr.mayChangeLocked] using h) arg).2
  case switchesClear src arg => exact (s.command_guards src _ fun t => t.answerClear_guards (by simpa [Instr.mayChangeLocked] using h) arg).2
  case restart => simp [Instr.mayChangeLocked] at h
  case cuenext src => exact (s.commandMeeting_guards src _ State.answerCuenext_guards).2
  case cueprev src => exact (s.commandMeeting_guards src _ State.answerCueprev_guards).2
  case cuegoto src k => exact (s.commandMeeting_guards src _ fun t => t.answerCuegoto_guards k).2
  -- Every other command writes neither word, or is routed nowhere.
  case setkey | setscale | unpin | loadscale => exact (s.commandMeeting_guards _ _ fun t => .of_words (by simp)).2
  case keytrack | keytrackClear => exact (s.commandTracking_guards _ _ fun t => .of_words (by simp)).2
  case setchord | hush | resume | cuestop | cueload | cuelen | loadshape | loadplan | bind | tracker | learn | rate | remeasure | howl | twowire
      | clearfault | ackflags | readstatus | readcontext | readvoice | readcue | readtable | readkeytrk =>
    exact (s.command_guards _ _ fun t => .of_words (by simp)).2
  case chordline | lineDisable | lineEnable => exact (s.command_guards _ _ fun t => .of_words (t.answerLine_words _ _)).2
  all_goals exact fun _ _ => rfl

theorem decodeCueload_mayChangeLocked {src : Manual} {args : List Byte} {i : Instr} (h : decodeCueload src args = .command i) :
    i.mayChangeLocked = false := by
  unfold decodeCueload at h
  (repeat' split at h) <;> cases h
  rfl

/-- R63, R170: the arguments that spell a SWITCHES of DESK or a RESTART are of that command. -/
theorem decodeArgs_mayChangeLocked {src : Manual} {c : Cmd} {args : List Byte} {i : Instr} (length : args.length ∈ c.lengths)
    (h : decodeArgs src c args = .command i) (may : i.mayChangeLocked = true) : c = .restart ∨ (src = .desk ∧ c = .switches) := by
  cases c
  case restart => exact .inl rfl
  case cueload => rw [decodeCueload_mayChangeLocked h] at may; cases may
  all_goals rw [Cmd.lengths, List.mem_singleton] at length
  case switches =>
    match args, length with
    | [form, arg], _ =>
      change (if form = 0#8 then _ else if form = 1#8 then _ else if form = 2#8 then _ else _) = _ at h
      (repeat' split at h) <;> cases h <;> simpa [Instr.mayChangeLocked] using may
  case rate =>
    match args, length with
    | [_, _, _, _, _, _, _, _, action], _ =>
      change (if action = 0#8 then _ else if action = 1#8 then _ else _) = _ at h
      (repeat' split at h) <;> cases h <;> cases may
  case keytrack =>
    match args, length with
    | [_, _, _, _, _, action], _ =>
      change (if action = 0#8 then _ else if action = 1#8 then _ else _) = _ at h
      (repeat' split at h) <;> cases h <;> cases may
  case hush | resume | cuenext | cueprev | cuestop | clearfault | readstatus | readcontext | readkeytrk =>
    match args, length with
    | [], _ => cases h; cases may
  case unpin | locksw | cuegoto | learn | twowire | readvoice =>
    match args, length with
    | [_], _ => cases h; cases may
  case setkey | setscale | cuelen | ackflags | readcue | readtable =>
    match args, length with
    | [_, _], _ => cases h; cases may
  case bind | loadshape | howl =>
    match args, length with
    | [_, _, _], _ => cases h; cases may
  case loadscale =>
    match args, length with
    | [_, _, _, _], _ => cases h; cases may
  case setchord | chordline =>
    match args, length with
    | [_, _, _, _, _, _], _ => cases h; cases may
  case tracker =>
    match args, length with
    | [_, _, _, _, _, _, _, _, _, _], _ => cases h; cases may
  case loadplan =>
    match args, length with
    | [_, _, _, _, _, _, _, _, _, _, _], _ => cases h; cases may

/-- R158, R167: which records carry a SWITCHES of DESK or a RESTART. -/
theorem decodeRecord_mayChangeLocked {src : Manual} {code : Byte} {args : List Byte} {i : Instr}
    (h : decodeRecord src code args = .command i) (may : i.mayChangeLocked = true) :
    (src = .panel ∧ code = 0x52#8) ∨ (src = .desk ∧ code = 0x14#8) := by
  unfold decodeRecord at h
  split at h
  · cases h
  next c named =>
    have code_eq : c.code = code := by simpa using List.find?_some named
    split at h
    · cases h
    next permitted =>
      split at h
      · cases h
      next length =>
        obtain rfl | ⟨rfl, rfl⟩ := decodeArgs_mayChangeLocked (not_not.mp length) h may
        · exact .inl ⟨by simpa [Cmd.sources] using permitted, code_eq.symm⟩
        · exact .inr ⟨rfl, code_eq.symm⟩

/-- R160, R162, R167: the bytes of a transaction that carry no SWITCHES of DESK and no RESTART. -/
theorem State.judge_keepsLocked (s : State) {src : Manual} (limit : Nat) {bytes : List Byte}
    (panel : src = .panel → bytes.head? ≠ some 0x52#8) (desk : src = .desk → bytes.head? ≠ some 0x14#8) :
    s.ctx.KeepsLocked (s.judge src limit bytes).ctx := by
  obtain ⟨_, e⟩ | ⟨code, args, rfl, _, e⟩ | ⟨code, rest, _, e⟩ := s.judge_cases src limit bytes <;> rw [e]
  · exact s.complete_guards.2
  · unfold State.record
    split
    next i decoded =>
      refine s.route_keepsLocked (Bool.eq_false_iff.mpr fun may => ?_)
      obtain ⟨rfl, rfl⟩ | ⟨rfl, rfl⟩ := decodeRecord_mayChangeLocked decoded may
      · exact panel rfl rfl
      · exact desk rfl rfl
    · exact (s.complete_guards.trans (.same (by simp))).2
  · exact (s.complete_guards.trans (.same (by simp))).2

@[simp] theorem State.setupFetch_ctx (s : State) (sel : Select) (n : Nat) : (s.setupFetch sel n).ctx = s.ctx := by
  simp only [State.setupFetch]; split <;> simp

@[simp] theorem State.stageReply_ctx (s : State) (r : ReadTransfer) : (s.stageReply r).ctx = s.ctx := by
  simp only [State.stageReply]; split <;> rfl

@[simp] theorem State.stageTimeOut_ctx (s : State) : s.stageTimeOut.ctx = s.ctx := by
  simp only [State.stageTimeOut]; split <;> simp

/-- R158, R160: a setup port transaction. -/
theorem State.setupCommand_keepsLocked (s : State) (sel : Select) (bytes : List Byte) (h : (Instr.commandTransaction sel bytes).mayChangeLocked = false) :
    s.ctx.KeepsLocked (s.setupCommand sel bytes).ctx := by
  unfold State.setupCommand
  split
  · exact (s.complete_guards.trans (.same (State.setupFetch_ctx _ _ _))).2
  split
  · exact State.judge_keepsLocked (s.freePort _) 32 (by cases sel <;> simp_all [Instr.mayChangeLocked, selectSource])
      (by cases sel <;> simp_all [Instr.mayChangeLocked, selectSource])
  · exact (s.complete_guards.trans (.same (by simp))).2

/-- R162: a stage transfer can carry neither. -/
theorem State.stageRecord_keepsLocked (s : State) (w : WriteTransfer) : s.ctx.KeepsLocked (s.stageRecord w).ctx := by
  unfold State.stageRecord
  split
  · exact State.judge_keepsLocked (src := .stage) (s.setPorts fun p => { p.endTransfer w.ending with acks := acknowledges w.bytes.length }) 16
      nofun nofun
  · exact s.complete_guards.2

/-- R65: every command that can carry no SWITCHES of DESK and no RESTART, and is not power-on. -/
theorem exec_keepsLocked {s t : State} {c : Instr} (h : c.mayChangeLocked = false) (e : exec c s = .next t) : s.ctx.KeepsLocked t.ctx := by
  cases c <;> injection e with e <;> subst e
  case powerOn => simp [Instr.mayChangeLocked] at h
  case settleComplete => exact s.settleRow_guards.2
  case decayEvent => exact s.decayRow_guards.2
  case dwellExpiry => exact s.dwellRow_guards.2
  case character s1 s2 s3 => exact (s.meeting_guards _ fun t => .of_words (t.character_words s1 s2 s3)).2
  case matchEnd => exact (s.meeting_guards _ fun t => .of_words t.matchEnd_words).2
  case commandTransaction sel bytes => exact s.setupCommand_keepsLocked sel bytes h
  case stageWrite w => exact s.stageRecord_keepsLocked w
  -- The other events write neither word, by themselves or after the completions; the other commands are routed.
  case fadeStepCount | grainBoundary | releaseComplete | learnComplete | howlDeclared | recoveryComplete | silenceThreshold =>
    exact (Context.Guards.of_words (by simp)).2
  case frameSync | frameAbsence | measurement | lineBreak | falseStart | timeOut | fetch | refusedTransaction | stageRead =>
    exact (s.complete_guards.trans (.of_words (by simp))).2
  case selectAssertion | startCondition => exact s.complete_guards.2
  all_goals
    have routed := s.route_keepsLocked h
    exact routed

/-! ### The mask at RESTART and power-on -/

theorem State.answerRestart_lockMask (s : State) : s.answerRestart.1.ctx.lockMask = 0#8 := by
  simp [State.answerRestart, State.handOff, answer, State.resetRuntime, Context.atReset]

/-- Settles O28: the mask is replaced by LOCKSW, RESTART and power-on, and every command's writes to the switch word pass the
locked switches by. -/
theorem lockMaskGuardsSwitches : Obligations.LockMaskGuardsSwitches := by
  refine ⟨fun s mask quiet => ⟨?_, ?_, ?_⟩, fun s t c h e => exec_keepsLocked h e, fun s => ⟨⟨_, rfl, ?_⟩, fun sa => ⟨_, rfl, rfl⟩⟩⟩
  · exact congrArg Host.Outcome.next (quiet.command_answers (c := .locksw) (body := fun t => t.answerLocksw mask) (by decide) rfl)
  · exact quiet.exec_notPermitted (i := .locksw .panel mask) rfl (by decide)
  · exact quiet.exec_notPermitted (i := .locksw .stage mask) rfl (by decide)
  · simp [State.cmdRestart, State.command, State.decoded, Cmd.sources, State.answerRestart_lockMask]

end Sys2Proof.Machine


/-! ## Pins own their fields, and the context copy is current (R52, R70, R109, R117, R129) -/

namespace Sys2Proof.Machine

/-! ### Field writes keep a pin's ownership (R52, R54 to R57, R60, R61) -/

/-- R57: a pin that a source may pass is held by that source afterwards. -/
theorem higher_of_rank_le {a b : Manual} (h : rank b ≤ rank a) : higher a b = a := by
  by_cases back : rank a ≤ rank b
  · rw [higher, if_pos back, rank_injective (Nat.le_antisymm h back)]
  · rw [higher, if_neg back]

theorem Field.PinOwned.write {α : Type} {f : Field α} (h : f.PinOwned) (v : α) (x : Source) (pin : Bool) : (f.write v x pin).1.PinOwned := by
  cases x with
  | auto a =>
    obtain ⟨_, e⟩ | ⟨y, pinned, e⟩ := f.write_auto v a pin <;> rw [e]
    · simp [Field.PinOwned]
    · exact ⟨h.1, by simp [pinned]⟩
  | manual m =>
    obtain ⟨_, e⟩ | ⟨y, _, le, e⟩ | ⟨y, _, _, e⟩ := f.write_manual v m pin <;> rw [e]
    · cases pin <;> simp [Field.PinOwned]
    · simp [Field.PinOwned, higher_of_rank_le le]
    · exact h

theorem Field.PinOwned.release {α : Type} {f : Field α} (h : f.PinOwned) (m : Manual) : (f.release m).1.PinOwned := by
  obtain ⟨_, e⟩ | ⟨y, _, _, e⟩ | ⟨y, _, _, ⟨x, _, e⟩ | ⟨none, e⟩⟩ := f.release_cases m <;> rw [e]
  · exact h
  · exact h
  · simp [Field.PinOwned]
  · simp [Field.PinOwned, none]

/-- R52 for the three fields of a context. -/
def Context.PinsOwned (c : Context) : Prop := c.key.PinOwned ∧ c.scale.PinOwned ∧ c.chord.PinOwned

theorem State.pinsOwned_iff (s : State) : s.PinsOwned ↔ s.ctx.PinsOwned := Iff.rfl

theorem State.PinsOwned.same {s t : State} (h : s.PinsOwned) (e : t.ctx = s.ctx) : t.PinsOwned := by
  rw [State.pinsOwned_iff, e]; exact h

theorem State.PinsOwned.writeKey {s : State} (h : s.PinsOwned) (v : Fin 12) (x : Source) (p : Bool) : (s.writeKey v x p).1.PinsOwned := by
  rw [State.pinsOwned_iff]
  simp only [State.writeKey, State.raiseIf_frame]
  exact ⟨h.1.write v x p, h.2⟩

theorem State.PinsOwned.writeScale {s : State} (h : s.PinsOwned) (v : Fin 8) (x : Source) (p : Bool) : (s.writeScale v x p).1.PinsOwned :=
  ⟨h.1, h.2.1.write v x p, h.2.2⟩

theorem State.PinsOwned.writeChord {s : State} (h : s.PinsOwned) (v : Option Chord) (x : Source) (p : Bool) :
    (s.writeChord v x p).1.PinsOwned :=
  ⟨h.1, h.2.1, h.2.2.write v x p⟩

theorem State.PinsOwned.autoKey {s : State} (h : s.PinsOwned) (v : Fin 12) (a : Auto) : (s.autoKey v a).PinsOwned := h.writeKey v _ _
theorem State.PinsOwned.autoScale {s : State} (h : s.PinsOwned) (v : Fin 8) (a : Auto) : (s.autoScale v a).PinsOwned := h.writeScale v _ _
theorem State.PinsOwned.autoChord {s : State} (h : s.PinsOwned) (v : Option Chord) (a : Auto) : (s.autoChord v a).PinsOwned :=
  h.writeChord v _ _

theorem State.PinsOwned.setSwitches {s : State} (h : s.PinsOwned) (w : BitVec 8) : (s.setSwitches w).PinsOwned := by
  rw [State.pinsOwned_iff, State.setSwitches_ctx]; exact h

theorem State.PinsOwned.writeStepFields {s : State} (h : s.PinsOwned) (c : CueStep) : (s.writeStepFields c).PinsOwned := by
  have key : State.PinsOwned (match c.key with | some v => s.autoKey v .cue | none => s) := by
    split
    · exact h.autoKey _ _
    · exact h
  have scale {s : State} (h : s.PinsOwned) : State.PinsOwned (match c.scale with | some v => s.autoScale v .cue | none => s) := by
    split
    · exact h.autoScale _ _
    · exact h
  simp only [State.writeStepFields]
  split
  · exact (scale key).autoChord _ _
  · exact scale key

theorem State.PinsOwned.stepWritten {s : State} (h : s.PinsOwned) (c : CueStep) : ((s.writeStepFields c).writeStepSwitches c).PinsOwned :=
  (h.writeStepFields c).setSwitches _

theorem State.PinsOwned.takeHead {s : State} (h : s.PinsOwned) (t : Trigger) : (s.takeHead t).PinsOwned := by
  obtain ⟨v, rest, _, e⟩ | ⟨_, e⟩ := s.takeHead_cases t <;> rw [e]
  · exact State.PinsOwned.autoChord (by exact h) v _
  · exact h

theorem State.PinsOwned.enterStepHeld {s : State} (h : s.PinsOwned) (k : Fin 64) : (s.enterStepHeld k).PinsOwned :=
  (h.stepWritten (s.tables.cueStep k)).same (by simp [State.enterStepHeld])

theorem State.PinsOwned.cueOnset {s : State} (h : s.PinsOwned) : s.cueOnset.PinsOwned := by
  simp only [State.cueOnset, State.advanceHeld]
  (repeat' split) <;> first
    | exact h
    | exact h.enterStepHeld _

theorem State.PinsOwned.breakAction {s : State} (h : s.PinsOwned) : s.breakAction.PinsOwned := by
  simp only [State.breakAction]
  split
  · exact h.autoChord _ _
  · exact h

theorem State.PinsOwned.lossActions {s : State} (h : s.PinsOwned) (c : LineCondition) : (s.lossActions c).PinsOwned := by
  cases c
  case lost => exact State.PinsOwned.breakAction (h.same (by simp))
  case broken => exact State.PinsOwned.breakAction (h.same (by simp))
  all_goals exact h

/-! ### What leaves the renderer's copy of an enable as it is (R129) -/

@[simp] theorem RenderRecord.adoptShift_enable (r : RenderRecord) : r.adoptShift.enable = r.enable := by
  simp only [RenderRecord.adoptShift]; split <;> rfl

@[simp] theorem RenderRecord.retest_enable (r : RenderRecord) (c : Bool) : (r.retest c).enable = r.enable := by
  obtain ⟨_, _, e⟩ | ⟨_, _, e⟩ | ⟨_, _, e⟩ | e := r.retest_cases c <;> rw [e]
  exact RenderRecord.adoptShift_enable _

@[simp] theorem RenderRecord.cut_enable (r : RenderRecord) : r.cut.enable = r.enable := rfl

@[simp] theorem RenderRecord.formShift_enable (r : RenderRecord) (f : Bool) (d : Int) : (r.formShift f d).enable = r.enable := by
  simp only [RenderRecord.formShift]; split <;> rfl

@[simp] theorem RenderRecord.takeGoal_enable (r : RenderRecord) (p : Plan) (d g : Int) : (r.takeGoal p d g).enable = r.enable := by
  simp only [RenderRecord.takeGoal]; (repeat' split) <;> simp

@[simp] theorem RenderRecord.glideStep_enable (r : RenderRecord) : r.glideStep.enable = r.enable := by
  simp only [RenderRecord.glideStep]; split <;> rfl

@[simp] theorem RenderRecord.hopWork_enable (r : RenderRecord) (f : Bool) (d : Int) : (r.hopWork f d).enable = r.enable := by
  simp [RenderRecord.hopWork]

@[simp] theorem RenderRecord.fadeStep_enable (r : RenderRecord) : r.fadeStep.enable = r.enable := by
  simp only [RenderRecord.fadeStep]; split <;> rfl

@[simp] theorem RenderRecord.takeBoundary_enable (r : RenderRecord) : r.takeBoundary.enable = r.enable := by
  simp only [RenderRecord.takeBoundary]; split <;> simp

@[simp] theorem RenderRecord.grainFrame_enable (r : RenderRecord) (n : Nat) : (r.grainFrame n).enable = r.enable := by
  simp only [RenderRecord.grainFrame]; split <;> rfl

@[simp] theorem Voice.setGoal_enable (v : Voice) (d : Int) (t n : Nat) : (v.setGoal d t n).ren.enable = v.ren.enable := by
  obtain ⟨_, e⟩ | ⟨_, e⟩ := v.setGoal_cases d t n <;> rw [e]
  simp

@[simp] theorem Voice.resolveAt_enable (v : Voice) (e : Surroundings) (n : Nat) : (v.resolveAt e n).ren.enable = v.ren.enable := by
  simp only [Voice.resolveAt]
  split
  · exact Voice.setGoal_enable _ _ _ _
  · rfl

@[simp] theorem Voice.adopt_enable (v : Voice) (e : Surroundings) (i : Fin 4) (p : Staged) : (v.adopt e i p).ren.enable = v.ren.enable := by
  simp only [Voice.adopt]
  split
  · exact Voice.resolveAt_enable _ _ _
  · rfl

@[simp] theorem Voice.stage_enable (v : Voice) (e : Surroundings) (i : Fin 4) (p : Staged) (h : Handing) :
    (v.stage e i p h).ren.enable = v.ren.enable := by
  simp only [Voice.stage]
  (repeat' split) <;> first
    | rfl
    | exact Voice.adopt_enable _ _ _ _

section
variable (s : State) (i : Fin 4)

@[simp] theorem State.stageOn_enable (j : Fin 4) (p : Staged) (h : Handing) :
    ((s.stageOn j p h).voices.get i).ren.enable = (s.voices.get i).ren.enable := by
  simp only [State.stageOn, Quad.update_get]; split <;> simp

@[simp] theorem State.stageStep_enable (c : CueStep) (h : Handing) :
    ((s.stageStep c h).voices.get i).ren.enable = (s.voices.get i).ren.enable := by
  unfold State.stageStep
  induction c.bindings generalizing s with
  | nil => rfl
  | cons b l ih => exact (ih _).trans (s.stageOn_enable i b.1 _ h)

@[simp] theorem State.stageLoad_enable (k : Fin 16) (p : Plan) (h : Handing) :
    ((s.stageLoad k p h).voices.get i).ren.enable = (s.voices.get i).ren.enable := by
  simp only [State.stageLoad, Quad.mapIdx_get]; split <;> simp

@[simp] theorem State.cutVoices_enable : (s.cutVoices.voices.get i).ren.enable = (s.voices.get i).ren.enable := by
  simp [State.cutVoices]

@[simp] theorem State.enterBypass_enable : (s.enterBypass.voices.get i).ren.enable = (s.voices.get i).ren.enable := by
  simp [State.enterBypass]

@[simp] theorem State.enterRun_enable : (s.enterRun.voices.get i).ren.enable = (s.voices.get i).ren.enable := by
  simp [State.enterRun]

@[simp] theorem State.causeAppears_enable (k : Cause) : ((s.causeAppears k).voices.get i).ren.enable = (s.voices.get i).ren.enable := by
  simp only [State.causeAppears]; (repeat' split) <;> simp

@[simp] theorem State.takeHowl_enable : (s.takeHowl.voices.get i).ren.enable = (s.voices.get i).ren.enable := by
  simp only [State.takeHowl, State.howlAppears]; (repeat' split) <;> simp

@[simp] theorem State.takeRecovery_enable : (s.takeRecovery.voices.get i).ren.enable = (s.voices.get i).ren.enable := by
  simp only [State.takeRecovery]; (repeat' split) <;> simp

@[simp] theorem State.takeFadeStep_enable : (s.takeFadeStep.voices.get i).ren.enable = (s.voices.get i).ren.enable := by
  simp only [State.takeFadeStep]; split <;> simp

@[simp] theorem State.takeRender_enable : (s.takeRender.voices.get i).ren.enable = (s.voices.get i).ren.enable := by
  simp only [State.takeRender]; split <;> simp

@[simp] theorem State.takeBoundary_enable (j : Fin 4) : ((s.takeBoundary j).voices.get i).ren.enable = (s.voices.get i).ren.enable := by
  simp only [State.takeBoundary, Quad.update_get]; split <;> simp

@[simp] theorem State.nextFrame_enable (w : SlotWord) (b : Nat) :
    ((s.nextFrame w b).voices.get i).ren.enable = (s.voices.get i).ren.enable := by
  simp [State.nextFrame, State.takeBoundaries]

@[simp] theorem State.rateLoss_enable : (s.rateLoss.voices.get i).ren.enable = (s.voices.get i).ren.enable := by
  simp [State.rateLoss_eq, State.lossHeard_voices]

@[simp] theorem State.absence_enable : (s.absence.voices.get i).ren.enable = (s.voices.get i).ren.enable := by
  simp only [State.absence, State.rateAbsence]; (repeat' split) <;> simp

@[simp] theorem State.measure_enable (m : Nat) : ((s.measure m).1.voices.get i).ren.enable = (s.voices.get i).ren.enable := by
  simp only [State.measure, State.measureLocked]; (repeat' split) <;> simp

@[simp] theorem State.hop_enable (a : Analysis) (o : RenderOrder) : ((s.hop a o).voices.get i).ren.enable = (s.voices.get i).ren.enable := by
  cases o <;> simp [State.hop, State.hopRendering]

@[simp] theorem State.measurement_enable (m : Nat) (a : Analysis) (o : RenderOrder) :
    ((s.measurement m a o).voices.get i).ren.enable = (s.voices.get i).ren.enable := by
  simp only [State.measurement]; (repeat' split) <;> simp

@[simp] theorem State.answerClearfault_enable : (s.answerClearfault.1.voices.get i).ren.enable = (s.voices.get i).ren.enable := by
  simp only [State.answerClearfault]; (repeat' split) <;> simp

@[simp] theorem State.answerBind_enable (v k a : Byte) : ((s.answerBind v k a).1.voices.get i).ren.enable = (s.voices.get i).ren.enable := by
  simp only [State.answerBind, answer]; split <;> simp

@[simp] theorem State.answerLoadplan_enable (k : Byte) (b : PlanBytes) (a : Byte) :
    ((s.answerLoadplan k b a).1.voices.get i).ren.enable = (s.voices.get i).ren.enable := by
  simp only [State.answerLoadplan, answer]; split <;> simp

end

/-! ### The two properties, kept side by side -/

/-- R52 and R70: what a run keeps of a context and its copy, each part for the states of a run that began with it. -/
def State.ContextSound (pins copied : Prop) (s : State) : Prop := (pins → s.PinsOwned) ∧ (copied → s.CopyCurrent)

section
variable {pins copied : Prop} {s t : State}

theorem State.ContextSound.still (h : s.ContextSound pins copied) (ctx : t.ctx = s.ctx) (copy : t.copy = s.copy)
    (enables : ∀ i, (t.voices.get i).ren.enable = (s.voices.get i).ren.enable) : t.ContextSound pins copied := by
  refine ⟨fun a => (h.1 a).same ctx, fun b => ?_⟩
  obtain ⟨current, on⟩ := h.2 b
  exact ⟨by rw [copy, ctx, current], fun i => by rw [enables, copy, on]⟩

theorem State.ContextSound.same (h : s.ContextSound pins copied) (ctx : t.ctx = s.ctx) (copy : t.copy = s.copy) (voices : t.voices = s.voices) :
    t.ContextSound pins copied := h.still ctx copy fun i => by rw [voices]

/-- R70, R117, R129: after a publication of the context in force the copy and the enables are those of that context. -/
theorem State.publish_current (s : State) (k : PublicationKind) (c : Changes) : (s.publish k c).CopyCurrent := by
  refine ⟨by simp [State.publish], fun i => ?_⟩
  simp [State.publish, State.deliver_voice, Voice.afterPublication, Surroundings.enabled]

/-- R70: where no item of the publication's list changed, the context that it would carry is the one before. -/
theorem Context.published_of_unchanged {c d : Context} {b : Bool} (h : (c.changes d b).any = false) : d.published = c.published := by
  obtain ⟨key, scale, chord, usable, _, switches⟩ := (c.changes_any d b).mp h
  simp [Context.published, key, scale, chord, usable, switches]

/-- R52, R70: a write to the context, and the CONTEXT publication of what it changed. -/
theorem State.ContextSound.published (h : s.ContextSound pins copied) (owned : s.PinsOwned → t.PinsOwned) (copy : t.copy = s.copy)
    (voices : t.voices = s.voices) (b : Bool) : (t.publishChanges s.ctx b).ContextSound pins copied := by
  refine ⟨fun a => (owned (h.1 a)).same (by simp), fun x => ?_⟩
  obtain ⟨unchanged, e⟩ | ⟨_, e⟩ := t.publishChanges_cases s.ctx b <;> rw [e]
  · obtain ⟨current, on⟩ := h.2 x
    exact ⟨by rw [copy, current, Context.published_of_unchanged unchanged], fun i => by rw [voices, copy, on]⟩
  · exact t.publish_current _ _

/-- R71, R72: a publication that is made whatever changed. -/
theorem State.ContextSound.notified (h : s.ContextSound pins copied) (owned : s.PinsOwned → t.PinsOwned) (k : PublicationKind) (c : Changes) :
    (t.publish k c).ContextSound pins copied :=
  ⟨fun a => (owned (h.1 a)).same (by simp), fun _ => t.publish_current k c⟩

theorem State.ContextSound.enterStep (h : s.ContextSound pins copied) (k : Fin 64) : (s.enterStep k).ContextSound pins copied := by
  have written := h.published (t := (s.writeStepFields (s.tables.cueStep k)).writeStepSwitches (s.tables.cueStep k))
    (fun owned => owned.stepWritten _) (by simp) (by simp) false
  exact written.still (by simp [State.enterStep]) (by simp [State.enterStep]) (by simp [State.enterStep])

theorem State.ContextSound.advance (h : s.ContextSound pins copied) : s.advance.ContextSound pins copied := by
  simp only [State.advance]
  split
  · exact h
  split
  · exact h.enterStep _
  · exact h.same (by simp) (by simp) (by simp)

theorem State.ContextSound.noteStart (h : s.ContextSound pins copied) (k : PublicationKind) : (s.noteStart k).ContextSound pins copied :=
  h.notified (fun owned => by exact (owned.takeHead .onset).cueOnset) k _

theorem State.ContextSound.noteOff (h : s.ContextSound pins copied) (n : Nat) : (s.noteOff n).ContextSound pins copied :=
  h.notified (fun owned => by exact owned.takeHead .phrase) _ _

theorem State.ContextSound.handCondition (h : s.ContextSound pins copied) (c : LineCondition) : (s.handCondition c).ContextSound pins copied := by
  simp only [State.handCondition]
  split
  · exact h
  · exact h.published (fun owned => by exact owned.lossActions c) (by simp) (by simp) false

theorem State.ContextSound.deriveCondition (h : s.ContextSound pins copied) : s.deriveCondition.ContextSound pins copied := h.handCondition _

theorem State.ContextSound.chordAt (h : s.ContextSound pins copied) (v : Option Chord) (a : ApplyAt) : (s.chordAt v a).ContextSound pins copied := by
  cases a with
  | now => exact h.published (fun owned => State.PinsOwned.autoChord (owned.same (by simp)) _ _) (by simp) (by simp) false
  | onset => exact h.same (by simp [State.chordAt]) (by simp [State.chordAt]) (by simp [State.chordAt])
  | phrase => exact h.same (by simp [State.chordAt]) (by simp [State.chordAt]) (by simp [State.chordAt])

theorem State.ContextSound.frameContent (h : s.ContextSound pins copied) (c : FrameContent) : (s.frameContent c).ContextSound pins copied := by
  cases c with
  | chord v a => exact h.chordAt v a
  | notes a l => exact h
  | key k x => exact h.published (fun owned => (owned.autoKey k _).autoScale x _) (by simp) (by simp) false
  | alive => exact h

theorem State.ContextSound.validFrame (h : s.ContextSound pins copied) (c : FrameContent) : (s.validFrame c).ContextSound pins copied := by
  have derived : (State.deriveCondition
      { s with line := { s.line with assembler := .hunt, silence := 0, frameSeen := true, broken := false } }).ContextSound pins copied :=
    State.ContextSound.deriveCondition (by exact h)
  simp only [State.validFrame]
  split
  · exact derived.frameContent c
  · exact derived

theorem State.ContextSound.completeFrame (h : s.ContextSound pins copied) (k : FrameKind) (d : List Byte) :
    (s.completeFrame k d).ContextSound pins copied := by
  simp only [State.completeFrame]
  split
  · exact h.validFrame _
  · exact h.same (by simp) (by simp) (by simp)

theorem State.ContextSound.huntChar (h : s.ContextSound pins copied) (c : LineChar) : (s.huntChar c).ContextSound pins copied := by
  simp only [State.huntChar, State.takeHeader]
  (repeat' split) <;> first
    | exact h.completeFrame _ _
    | exact h.same (by simp) (by simp) (by simp)

theorem State.ContextSound.frameChar (h : s.ContextSound pins copied) (k : FrameKind) (n : Nat) (d : List Byte) (c : LineChar) :
    (s.frameChar k n d c).ContextSound pins copied := by
  simp only [State.frameChar]
  (repeat' split) <;> first
    | exact h.huntChar c
    | exact h.completeFrame _ _
    | exact State.ContextSound.huntChar (s := s.raise .frameDrop) (h.same (by simp) (by simp) (by simp)) c
    | exact h.same (by simp) (by simp) (by simp)

theorem State.ContextSound.takeChar (h : s.ContextSound pins copied) : s.takeChar.ContextSound pins copied := by
  simp only [State.takeChar]
  (repeat' split) <;> first
    | exact h
    | exact State.ContextSound.huntChar (by exact h) _
    | exact State.ContextSound.frameChar (by exact h) _ _ _ _

theorem State.ContextSound.drain (n : Nat) (h : s.ContextSound pins copied) : (State.drain n s).ContextSound pins copied := by
  induction n generalizing s with
  | zero => exact h
  | succ n ih => exact ih h.takeChar

theorem State.ContextSound.receive (h : s.ContextSound pins copied) (c : LineChar) : (s.receive c).ContextSound pins copied := by
  simp only [State.receive]
  split
  · exact .drain 2 h
  · exact h.same (by simp) (by simp) (by simp)

theorem State.ContextSound.character (h : s.ContextSound pins copied) (s1 s2 s3 : BitVec 12) :
    (s.character s1 s2 s3).ContextSound pins copied := by
  simp only [State.character]
  split
  · exact h
  split
  · exact h.same (by simp) (by simp) (by simp)
  · exact State.ContextSound.receive (h.same (by simp) (by simp) (by simp)) _

theorem State.ContextSound.matchEnd (h : s.ContextSound pins copied) : s.matchEnd.ContextSound pins copied := by
  simp only [State.matchEnd]
  split
  · exact h
  next m _ =>
    have handled : (State.matchOutcome { s with matcher := none } m).ContextSound pins copied := by
      simp only [State.matchOutcome]
      split
      · exact h
      split
      · exact h
      · exact State.ContextSound.chordAt (by exact h) _ _
    exact .drain 2 (handled.same (by simp) (by simp) (by simp))

theorem State.ContextSound.lineChanged (h : s.ContextSound pins copied) (o : LineSettings) : (s.lineChanged o).ContextSound pins copied := by
  simp only [State.lineChanged]
  (repeat' split) <;> first
    | exact State.ContextSound.handCondition (h.same (by simp) (by simp) (by simp)) _
    | exact h

/-- R63: a manual switch write. -/
theorem State.ContextSound.switchWrite (h : s.ContextSound pins copied) (w m : BitVec 8) : (s.switchWrite w m).1.ContextSound pins copied :=
  h.published (fun owned => owned.setSwitches w) (by simp) (by simp) false

end

theorem contextSound_kept (pins copied : Prop) : Kept (State.ContextSound pins copied) := by
  constructor
  case powerOn =>
    intro s sa _
    obtain ⟨_, _, _, _, _, _, _, _, _, _, owned, current, _⟩ := resetMeetsEveryInvariant sa
    exact ⟨fun _ => owned, fun _ => current⟩
  case takeHowl => intro s h; exact h.still (by simp) (by simp) (by simp)
  case takeRecovery => intro s h; exact h.still (by simp) (by simp) (by simp)
  case takeNoteStart =>
    intro s h; simp only [State.takeNoteStart]; split
    · exact h.noteStart _
    · exact h
  case takeNoteOff =>
    intro s h; simp only [State.takeNoteOff]; split <;> first
      | exact h.noteOff _
      | exact h
  case takeProposal =>
    intro s h
    obtain ⟨_, e⟩ | ⟨k, _, e⟩ := s.takeProposal_cases <;> rw [e]
    · exact h
    · exact h.published (fun owned => State.PinsOwned.autoKey (by exact owned) k _) (by simp) (by simp) false
  case takeDwell =>
    intro s h; simp only [State.takeDwell]; split
    · exact State.ContextSound.advance (by exact h)
    · exact h
  case takeSilence =>
    intro s h; simp only [State.takeSilence]; split
    · exact State.ContextSound.deriveCondition (by exact h)
    · exact h
  case takeFadeStep => intro s h; exact h.still (by simp) (by simp) (by simp)
  case takeRender => intro s h; exact h.still (by simp) (by simp) (by simp)
  case takeBoundary => intro s i h; exact h.still (by simp) (by simp) (by simp)
  case nextFrame => intro s w b h; exact h.still (by simp) (by simp) (by simp)
  case absence => intro s h; exact h.still (by simp) (by simp) (by simp)
  case measurement => intro s m a o h; exact h.still (by simp) (by simp) (by simp)
  case character => intro s s1 s2 s3 h; exact h.character s1 s2 s3
  case lineBreak =>
    intro s h; simp only [State.lineBreak]; split
    · exact State.ContextSound.deriveCondition (by exact h)
    · exact h
  case matchEnd => intro s h; exact h.matchEnd
  case setkey =>
    intro s src k p h
    simp only [State.answerSetkey, answer]
    split
    · exact h.published (fun owned => owned.writeKey _ _ _) (by simp) (by simp) false
    · exact h
  case setscale =>
    intro s src k p h
    simp only [State.answerSetscale, answer]
    (repeat' split) <;> first
      | exact h
      | exact h.published (fun owned => owned.writeScale _ _ _) (by simp) (by simp) false
  case setchord =>
    intro s src p b h
    simp only [State.answerSetchord, State.answerChordWrite, answer]
    (repeat' split) <;> first
      | exact h
      | exact h.published (fun owned => owned.writeChord _ _ _) (by simp) (by simp) false
  case unpin =>
    intro s src f h
    simp only [State.answerUnpin, unpinAnswer, answer]
    split
    · split
      · exact h
      · refine h.published (fun owned => ?_) (by simp) (by simp) false
        rw [State.pinsOwned_iff, (State.raiseIf_frame _ _ _).2.2.2.2.2.1]
        exact ⟨owned.1.release src, owned.2⟩
    split
    · split
      · exact h
      · exact h.published (fun owned => by exact ⟨owned.1, owned.2.1.release src, owned.2.2⟩) (by rfl) (by rfl) false
    split
    · split
      · exact h
      · exact h.published (fun owned => by exact ⟨owned.1, owned.2.1, owned.2.2.release src⟩) (by rfl) (by rfl) false
    · exact h
  case put => intro s src arg h; exact h.switchWrite _ _
  case set => intro s src arg h; exact h.switchWrite _ _
  case clear => intro s src arg h; exact h.switchWrite _ _
  case hush =>
    intro s src h
    simp only [State.answerHush]
    split
    · exact State.ContextSound.still (s := { s with ctx := { s.ctx with hush := some src } }) h (by simp) (by simp) (by simp)
    · exact h
  case resume =>
    intro s src h
    simp only [State.answerResume, answer]
    (repeat' split) <;> first
      | exact h
      | exact State.ContextSound.still (s := { s with ctx := { s.ctx with hush := none } }) h (by simp) (by simp) (by simp)
  case locksw => intro s mask h; exact h
  case cuenext =>
    intro s h
    simp only [State.answerCuenext, navigated, answer]
    (repeat' split) <;> first
      | exact h
      | exact h.enterStep _
  case cueprev =>
    intro s h
    simp only [State.answerCueprev, navigated, answer]
    (repeat' split) <;> first
      | exact h
      | exact h.enterStep _
  case cuegoto =>
    intro s k h
    simp only [State.answerCuegoto, navigated, answer]
    (repeat' split) <;> first
      | exact h
      | exact h.enterStep _
  case loadscale =>
    intro s k m r h
    simp only [State.answerLoadscale, answer]
    (repeat' split) <;> first
      | exact h
      | exact h.published (fun owned => by exact owned) (by rfl) (by rfl) _
  case loadshape =>
    intro s k m h
    simp only [State.answerLoadshape, answer]
    (repeat' split) <;> first
      | exact h
      | exact h.published (fun owned => by exact owned) (by rfl) (by rfl) _
  case loadplan => intro s k b a h; exact h.still (by simp) (by simp) (by simp)
  case bind => intro s v k a h; exact h.still (by simp) (by simp) (by simp)
  case clearfault => intro s h; exact h.still (by simp) (by simp) (by simp)
  case line =>
    intro s b e h
    simp only [State.answerLine, answer, State.lineThresholds]
    (repeat' split) <;> first
      | exact h
      | exact State.ContextSound.deriveCondition (.lineChanged (by exact h) _)
      | exact State.ContextSound.lineChanged (by exact h) _
  case restart =>
    intro s h
    have reset : s.resetRuntime.PinsOwned := by simp [State.pinsOwned_iff, Context.PinsOwned, State.resetRuntime, Context.atReset, Field.atReset, Field.PinOwned]
    have published := h.notified (fun _ => reset) .context (s.ctx.changes .atReset false)
    exact published.published (fun owned => by exact owned) (by rfl) (by rfl) false
  all_goals intros; exact State.ContextSound.same ‹_› (by simp) (by simp) (by simp)

/-- Settles O56: every write to the context keeps a pin's ownership and is followed by its publication. -/
theorem contextAndCopyStayConsistent : Obligations.ContextAndCopyStayConsistent := by
  intro s t e
  obtain ⟨owned, current⟩ := (contextSound_kept s.PinsOwned s.CopyCurrent).step s t ⟨id, id⟩ e
  exact ⟨owned, current⟩

end Sys2Proof.Machine


/-! ## The context commands (R54 to R70, R136, R137, R140, R169) -/

namespace Sys2Proof.Machine

/-! ### Records that may write KEY or SCALE, with nothing due -/

/-- R107, R167 to R169: with nothing due, a record that may write KEY or SCALE leaves what the block answers. -/
theorem State.Quiet.commandMeeting_answers {s t : State} (h : s.Quiet) {src : Manual} {c : Cmd} (permitted : src ∈ c.sources)
    {body : State → Answer} {code : ReplyCode} {data : List Byte} (answers : body s = (t, code, data)) (still : t.due = s.due) :
    s.commandMeeting src c body = t.reply src ⟨c.code, code, data⟩ := by
  have none_waits : (t.reply src ⟨c.code, code, data⟩).due.proposal = none := by
    rw [(State.reply_frame _ _ _).2.2.2.2.2.2.2.2.2.2.2.2.2.2.2.1, still, h]; rfl
  rw [h.commandMeeting, State.decoded_permitted s permitted, answers, State.takeProposal_not_due none_waits]

/-! ### Fields of a record -/

theorem readFin_of_lt {n : Nat} [NeZero n] {b : Byte} (h : b.toNat < n) : readFin n b = some (Fin.ofNat n b.toNat) := by
  have value : (⟨b.toNat, h⟩ : Fin n) = Fin.ofNat n b.toNat := Fin.ext (Nat.mod_eq_of_lt h).symm
  rw [readFin, dif_pos h, value]

theorem readFin_of_le {n : Nat} {b : Byte} (h : n ≤ b.toNat) : readFin n b = none := dif_neg (by omega)

theorem finByte_ofNat {n : Nat} [NeZero n] {b : Byte} (h : b.toNat < n) : finByte (Fin.ofNat n b.toNat) = b := by
  have value : (Fin.ofNat n b.toNat).val = b.toNat := Nat.mod_eq_of_lt h
  rw [finByte, value, byteOf_toNat]

theorem readPin_of_le {b : Byte} (h : b.toNat ≤ 1) : readPin b = some (decide (b = 1#8)) := by
  have codes : b = 0#8 ∨ b = 1#8 := by bv_omega
  obtain rfl | rfl := codes <;> rfl

theorem readPin_of_lt {b : Byte} (h : 1 < b.toNat) : readPin b = none := by
  obtain ⟨zero, one⟩ := Byte.above_one h
  rw [readPin, if_neg zero, if_neg one]

/-! ### Arbitration (R54, R56, R57) -/

/-- R56: whether a manual source's write to a field goes through. -/
def Field.Passes {α : Type} (f : Field α) (m : Manual) : Prop := f.pin = none ∨ ∃ y, f.pin = some y ∧ rank y ≤ rank m

/-- R57: the pin holder after a write of `m` that goes through. -/
def Field.holderAfter {α : Type} (f : Field α) (m : Manual) (pin : Byte) : Option Manual :=
  match f.pin with
  | none => if pin = 1#8 then some m else none
  | some y => some (if rank y ≤ rank m then m else y)

theorem Field.write_passes {α : Type} {f : Field α} {m : Manual} (pass : f.Passes m) (v : α) (pin : Byte) :
    f.write v (.manual m) (decide (pin = 1#8)) = (⟨v, .source (.manual m), f.holderAfter m pin, none⟩, .applied) := by
  obtain unpinned | ⟨y, pinned, le⟩ := pass
  · simp [Field.write, Field.holderAfter, unpinned]
  · simp [Field.write, Field.holderAfter, pinned, le, higher_of_rank_le le]

theorem Field.write_outranked {α : Type} {f : Field α} {m : Manual} (blocked : ¬f.Passes m) (v : α) (pin : Bool) :
    f.write v (.manual m) pin = (f, .outranked) := by
  obtain ⟨unpinned, _⟩ | ⟨y, pinned, le, _⟩ | ⟨_, _, _, e⟩ := f.write_manual v m pin
  · exact absurd (.inl unpinned) blocked
  · exact absurd (.inr ⟨y, pinned, le⟩) blocked
  · exact e

/-! ### Publications that carry no change (R70) -/

theorem State.publishChanges_unchanged {s : State} {before : Context} (h : (before.changes s.ctx false).any = false) :
    s.publishChanges before false = s := by
  obtain ⟨_, e⟩ | ⟨any, _⟩ := s.publishChanges_cases before false
  · exact e
  · rw [any] at h; cases h

@[simp] theorem State.publishChanges_self (s : State) : s.publishChanges s.ctx false = s :=
  s.publishChanges_unchanged ((Context.changes_any _ _ _).mpr ⟨rfl, rfl, rfl, rfl, rfl, rfl⟩)

/-! ### SETKEY and SETSCALE (R58) -/

section
variable (s : State) {src : Manual} {x pin : Byte}

theorem State.writeKey_manual (v : Fin 12) (m : Manual) (p : Bool) :
    s.writeKey v (.manual m) p =
      ({ s with ctx := { s.ctx with key := (s.ctx.key.write v (.manual m) p).1 } }, (s.ctx.key.write v (.manual m) p).2) := by
  simp [State.writeKey]

theorem State.answerSetkey_range (bad : ¬(x.toNat ≤ 11 ∧ pin.toNat ≤ 1)) : s.answerSetkey src x pin = (s, .range, []) := by
  by_cases tonic : x.toNat ≤ 11
  · rw [State.answerSetkey, readPin_of_lt (by omega)]
    cases readFin 12 x <;> rfl
  · rw [State.answerSetkey, readFin_of_le (by omega)]
    rfl

theorem State.answerSetkey_passes (ok : x.toNat ≤ 11 ∧ pin.toNat ≤ 1) (pass : s.ctx.key.Passes src) :
    s.answerSetkey src x pin =
      (State.publishChanges { s with ctx := { s.ctx with
        key := ⟨Fin.ofNat 12 x.toNat, .source (.manual src), s.ctx.key.holderAfter src pin, none⟩ } } s.ctx false,
        .done, [x, manualCode src, holderByte (s.ctx.key.holderAfter src pin)]) := by
  have tonic : x.toNat < 12 := by omega
  simp only [State.answerSetkey, readFin_of_lt tonic, readPin_of_le ok.2, State.writeKey_manual, Field.write_passes pass, writeCode, fieldData,
    finByte_ofNat tonic]
  rfl

theorem State.answerSetkey_outranked (ok : x.toNat ≤ 11 ∧ pin.toNat ≤ 1) (blocked : ¬s.ctx.key.Passes src) :
    s.answerSetkey src x pin = (s, .outranked, fieldData s.ctx.key fun v => [finByte v]) := by
  have tonic : x.toNat < 12 := by omega
  simp only [State.answerSetkey, readFin_of_lt tonic, readPin_of_le ok.2, State.writeKey_manual, Field.write_outranked blocked, writeCode,
    State.publishChanges_self]

theorem State.answerSetscale_range (bad : ¬(x.toNat ≤ 7 ∧ pin.toNat ≤ 1)) : s.answerSetscale src x pin = (s, .range, []) := by
  by_cases slot : x.toNat ≤ 7
  · rw [State.answerSetscale, readPin_of_lt (by omega)]
    cases readFin 8 x <;> rfl
  · rw [State.answerSetscale, readFin_of_le (by omega)]
    rfl

/-- R38: whether the scale slot that a byte names is non-empty. -/
theorem Tables.scaleFilled_ofNat (t : Tables) {x : Byte} (slot : x.toNat < 8) :
    t.scaleFilled (Fin.ofNat 8 x.toNat) = true ↔ (t.scales.getD x.toNat ⟨0#12, .parallel⟩).members ≠ 0#12 := by
  simp [Tables.scaleFilled, Nat.mod_eq_of_lt slot]

theorem State.answerSetscale_empty (ok : x.toNat ≤ 7 ∧ pin.toNat ≤ 1) (empty : s.tables.scaleFilled (Fin.ofNat 8 x.toNat) = false) :
    s.answerSetscale src x pin = (s, .empty, []) := by
  have slot : x.toNat < 8 := by omega
  simp only [State.answerSetscale, readFin_of_lt slot, readPin_of_le ok.2, empty]
  rfl

theorem State.answerSetscale_passes (ok : x.toNat ≤ 7 ∧ pin.toNat ≤ 1) (filled : s.tables.scaleFilled (Fin.ofNat 8 x.toNat) = true)
    (pass : s.ctx.scale.Passes src) :
    s.answerSetscale src x pin =
      (State.publishChanges { s with ctx := { s.ctx with
        scale := ⟨Fin.ofNat 8 x.toNat, .source (.manual src), s.ctx.scale.holderAfter src pin, none⟩ } } s.ctx false,
        .done, [x, manualCode src, holderByte (s.ctx.scale.holderAfter src pin)]) := by
  have slot : x.toNat < 8 := by omega
  simp only [State.answerSetscale, readFin_of_lt slot, readPin_of_le ok.2, if_pos filled, State.writeScale, Field.write_passes pass, writeCode,
    fieldData, finByte_ofNat slot]
  rfl

theorem State.answerSetscale_outranked (ok : x.toNat ≤ 7 ∧ pin.toNat ≤ 1) (filled : s.tables.scaleFilled (Fin.ofNat 8 x.toNat) = true)
    (blocked : ¬s.ctx.scale.Passes src) : s.answerSetscale src x pin = (s, .outranked, fieldData s.ctx.scale fun v => [finByte v]) := by
  have slot : x.toNat < 8 := by omega
  simp only [State.answerSetscale, readFin_of_lt slot, readPin_of_le ok.2, if_pos filled, State.writeScale, Field.write_outranked blocked,
    writeCode, State.publishChanges_self]

end

section
variable {s t : State} {code : ReplyCode} {data : List Byte} {src : Manual} {x pin : Byte}

theorem State.Quiet.exec_setkey (h : s.Quiet) (answers : s.answerSetkey src x pin = (t, code, data)) :
    exec (.setkey src x pin) s = .next (t.reply src ⟨0x10#8, code, data⟩) := by
  have still : t.due = s.due := by simpa using (congrArg (fun a : Answer => a.1.due) answers).symm
  exact congrArg Host.Outcome.next
    (h.commandMeeting_answers (c := .setkey) (body := fun u => u.answerSetkey src x pin) (by cases src <;> decide) answers still)

theorem State.Quiet.exec_setscale (h : s.Quiet) (answers : s.answerSetscale src x pin = (t, code, data)) :
    exec (.setscale src x pin) s = .next (t.reply src ⟨0x11#8, code, data⟩) := by
  have still : t.due = s.due := by simpa using (congrArg (fun a : Answer => a.1.due) answers).symm
  exact congrArg Host.Outcome.next
    (h.commandMeeting_answers (c := .setscale) (body := fun u => u.answerSetscale src x pin) (by cases src <;> decide) answers still)

end

/-- R58, R70: a write of the value in force is published as no change. -/
theorem State.publishChanges_key_same (s : State) {f : Field (Fin 12)} (same : f.value = s.ctx.key.value) :
    State.publishChanges { s with ctx := { s.ctx with key := f } } s.ctx false = { s with ctx := { s.ctx with key := f } } :=
  State.publishChanges_unchanged ((Context.changes_any _ _ _).mpr ⟨same.symm, rfl, rfl, rfl, rfl, rfl⟩)

theorem State.publishChanges_scale_same (s : State) {f : Field (Fin 8)} (same : f.value = s.ctx.scale.value) :
    State.publishChanges { s with ctx := { s.ctx with scale := f } } s.ctx false = { s with ctx := { s.ctx with scale := f } } :=
  State.publishChanges_unchanged ((Context.changes_any _ _ _).mpr ⟨rfl, same.symm, rfl, rfl, rfl, rfl⟩)

/-- Settles O24: each command's checks in their order, and the arbitration of its field. -/
theorem setkeyAndSetscaleAreArbitrated : Obligations.SetkeyAndSetscaleAreArbitrated := by
  refine ⟨fun s src tonic pin quiet => ⟨fun bad => ?_, fun ok blocked => ?_, fun ok pass => ⟨?_, fun same => ?_⟩⟩,
    fun s src slot pin quiet => ⟨fun bad => ?_, fun ok empty => ?_, fun ok filled blocked => ?_, fun ok filled pass => ⟨?_, fun same => ?_⟩⟩⟩
  · exact quiet.exec_setkey (s.answerSetkey_range bad)
  · exact quiet.exec_setkey (s.answerSetkey_outranked ok blocked)
  · exact quiet.exec_setkey (s.answerSetkey_passes ok pass)
  · exact s.publishChanges_key_same (same ▸ Fin.ofNat_val_eq_self _)
  · exact quiet.exec_setscale (s.answerSetscale_range bad)
  · have unfilled := mt (s.tables.scaleFilled_ofNat (by omega : slot.toNat < 8)).mp empty
    exact quiet.exec_setscale (s.answerSetscale_empty ok (Bool.eq_false_iff.mpr unfilled))
  · exact quiet.exec_setscale (s.answerSetscale_outranked ok ((s.tables.scaleFilled_ofNat (by omega)).mpr filled) blocked)
  · exact quiet.exec_setscale (s.answerSetscale_passes ok ((s.tables.scaleFilled_ofNat (by omega)).mpr filled) pass)
  · exact s.publishChanges_scale_same (same ▸ Fin.ofNat_val_eq_self _)

end Sys2Proof.Machine


namespace Sys2Proof.Machine

/-! ### SETCHORD (R59) -/

/-- R59: whether the fields of a record of kind CHORD lie in their ranges. -/
def ChordInRange (c : Cmd) (b : ChordBytes) : Prop :=
  b.root.toNat ≤ 11 ∧ b.shape.toNat ≤ 15 ∧ (readMark c b.bassMark = true → b.bass.toNat ≤ 11)

/-- R59: the chord of a record of kind CHORD, a bass equal to the root stored absent. -/
def chordOf (c : Cmd) (b : ChordBytes) : Chord :=
  ⟨Fin.ofNat 12 b.root.toNat, Fin.ofNat 16 b.shape.toNat,
    if readMark c b.bassMark = true ∧ b.bass ≠ b.root then some (Fin.ofNat 12 b.bass.toNat) else none⟩

theorem Fin.ofNat_inj_of_lt {n : Nat} [NeZero n] {a b : Byte} (ha : a.toNat < n) (hb : b.toNat < n) :
    Fin.ofNat n a.toNat = Fin.ofNat n b.toNat ↔ a = b := by
  refine ⟨fun e => BitVec.eq_of_toNat_eq ?_, fun e => by rw [e]⟩
  simpa [Fin.ext_iff, Nat.mod_eq_of_lt ha, Nat.mod_eq_of_lt hb] using e

theorem readChord_inRange {c : Cmd} {b : ChordBytes} (ok : ChordInRange c b) : readChord c b = some (chordOf c b) := by
  obtain ⟨root, shape, bass⟩ := ok
  have root : b.root.toNat < 12 := by omega
  simp only [readChord, readFin_of_lt root, readFin_of_lt (show b.shape.toNat < 16 by omega), chordOf]
  cases marked : readMark c b.bassMark
  · simp
  · have bass : b.bass.toNat < 12 := Nat.lt_succ_of_le (bass marked)
    by_cases same : b.bass = b.root
    · simp [readFin_of_lt root, storedBass, same]
    · have differs := mt (Fin.ofNat_inj_of_lt bass root).mp same
      simp only [readFin_of_lt bass, storedBass, Option.some.injEq, if_neg differs, if_true, same, ne_eq, not_false_eq_true, and_self]

theorem readChord_outside {c : Cmd} {b : ChordBytes} (bad : ¬ChordInRange c b) : readChord c b = none := by
  by_cases root : b.root.toNat ≤ 11
  · by_cases shape : b.shape.toNat ≤ 15
    · simp only [ChordInRange, root, shape, true_and, Classical.not_imp] at bad
      obtain ⟨marked, bass⟩ := bad
      simp [readChord, readFin_of_lt (show b.root.toNat < 12 by omega), readFin_of_lt (show b.shape.toNat < 16 by omega), marked,
        readFin_of_le (show 12 ≤ b.bass.toNat by omega)]
    · rw [readChord, readFin_of_le (show 16 ≤ b.shape.toNat by omega)]
      cases readFin 12 b.root <;> rfl
  · rw [readChord, readFin_of_le (show 12 ≤ b.root.toNat by omega)]

/-- R43: whether the shape slot that a byte names is non-empty. -/
theorem Tables.shapeFilled_ofNat (t : Tables) {x : Byte} (slot : x.toNat < 16) :
    t.shapeFilled (Fin.ofNat 16 x.toNat) = true ↔ t.shapes.getD x.toNat 0#12 ≠ 0#12 := by
  simp [Tables.shapeFilled, Nat.mod_eq_of_lt slot]

/-- R59: the value that a passed SETCHORD gives CHORD. -/
def chordValue (c : Cmd) (b : ChordBytes) : Option Chord := if b.kind = 1#8 then some (chordOf c b) else none

section
variable (s : State) {src : Manual} {pin : Byte} {b : ChordBytes}

theorem State.answerSetchord_range (bad : ¬(pin.toNat ≤ 1 ∧ b.kind.toNat ≤ 1 ∧ (b.kind = 1#8 → ChordInRange .setchord b))) :
    s.answerSetchord src pin b = (s, .range, []) := by
  by_cases request : pin.toNat ≤ 1
  · by_cases kind : b.kind.toNat ≤ 1
    · simp only [request, kind, true_and, Classical.not_imp] at bad
      obtain ⟨one, outside⟩ := bad
      simp only [State.answerSetchord, readPin_of_le request, one, if_neg (show ¬(1#8 = 0#8) by decide), if_true, readChord_outside outside]
      rfl
    · obtain ⟨zero, one⟩ := Byte.above_one (not_le.mp kind)
      simp only [State.answerSetchord, readPin_of_le request, if_neg zero, if_neg one]
      rfl
  · simp only [State.answerSetchord, readPin_of_lt (not_le.mp request)]
    rfl

theorem State.answerSetchord_empty (request : pin.toNat ≤ 1) (kind : b.kind = 1#8) (inside : ChordInRange .setchord b)
    (empty : s.tables.shapes.getD b.shape.toNat 0#12 = 0#12) : s.answerSetchord src pin b = (s, .empty, []) := by
  have unfilled : s.tables.shapeFilled (chordOf .setchord b).shape = false := by
    rw [Bool.eq_false_iff]
    exact mt (s.tables.shapeFilled_ofNat (Nat.lt_succ_of_le inside.2.1)).mp (not_not.mpr empty)
  simp only [State.answerSetchord, readPin_of_le request, kind, if_neg (show ¬(1#8 = 0#8) by decide), if_true, readChord_inRange inside, unfilled]
  rfl

/-- R59: a SETCHORD that has passed its checks writes its value. -/
theorem State.answerSetchord_writes (request : pin.toNat ≤ 1) (kind : b.kind.toNat ≤ 1)
    (chord : b.kind = 1#8 → ChordInRange .setchord b ∧ s.tables.shapes.getD b.shape.toNat 0#12 ≠ 0#12) :
    s.answerSetchord src pin b = s.answerChordWrite src (chordValue .setchord b) (decide (pin = 1#8)) := by
  have codes : b.kind = 0#8 ∨ b.kind = 1#8 := by bv_omega
  obtain zero | one := codes
  · simp [State.answerSetchord, readPin_of_le request, chordValue, zero]
  · obtain ⟨inside, nonempty⟩ := chord one
    have filled : s.tables.shapeFilled (chordOf .setchord b).shape = true :=
      (s.tables.shapeFilled_ofNat (Nat.lt_succ_of_le inside.2.1)).mpr nonempty
    simp [State.answerSetchord, readPin_of_le request, chordValue, one, readChord_inRange inside, filled]

theorem State.answerChordWrite_passes (pass : s.ctx.chord.Passes src) (v : Option Chord) :
    s.answerChordWrite src v (decide (pin = 1#8)) =
      (State.publishChanges { s with ctx := { s.ctx with
        chord := ⟨v, .source (.manual src), s.ctx.chord.holderAfter src pin, none⟩ } } s.ctx false,
        .done, chordBytes v ++ [manualCode src, holderByte (s.ctx.chord.holderAfter src pin)]) := by
  simp only [State.answerChordWrite, State.writeChord, Field.write_passes pass, writeCode, fieldData]
  rfl

theorem State.answerChordWrite_outranked (blocked : ¬s.ctx.chord.Passes src) (v : Option Chord) (p : Bool) :
    s.answerChordWrite src v p = (s, .outranked, fieldData s.ctx.chord chordBytes) := by
  simp only [State.answerChordWrite, State.writeChord, Field.write_outranked blocked, writeCode, State.publishChanges_self]

theorem State.Quiet.exec_setchord {s t : State} {code : ReplyCode} {data : List Byte} (h : s.Quiet)
    (answers : s.answerSetchord src pin b = (t, code, data)) :
    exec (.setchord src pin b) s = .next (t.reply src ⟨0x12#8, code, data⟩) :=
  congrArg Host.Outcome.next
    (h.command_answers (c := .setchord) (body := fun u => u.answerSetchord src pin b) (by cases src <;> decide) answers)

end

/-- Settles O25: the checks in their order, and the arbitration of CHORD. -/
theorem setchordWritesTheChord : Obligations.SetchordWritesTheChord := by
  refine ⟨⟨rfl, rfl⟩, fun s src pin b quiet => ⟨fun bad => ?_, fun ok empty => ?_, fun ok filled blocked => ?_, fun ok filled pass => ?_⟩⟩
  · exact quiet.exec_setchord (s.answerSetchord_range bad)
  · obtain ⟨one, empty⟩ := Classical.not_imp.mp empty
    exact quiet.exec_setchord (s.answerSetchord_empty ok.1 one (ok.2.2 one) (not_not.mp empty))
  · have writes := s.answerSetchord_writes (src := src) ok.1 ok.2.1 fun one => ⟨ok.2.2 one, filled one⟩
    exact quiet.exec_setchord (writes.trans (s.answerChordWrite_outranked blocked _ _))
  · have writes := s.answerSetchord_writes (src := src) ok.1 ok.2.1 fun one => ⟨ok.2.2 one, filled one⟩
    exact quiet.exec_setchord (writes.trans (s.answerChordWrite_passes pass _))

/-! ### Automatic writes (R54, R55) -/

/-- R54: the flag word with KEYADOPT. -/
theorem Flag.keyAdopt_mask : Flag.keyAdopt.mask = 0x80#16 := rfl

section
variable {s : State} {a : Auto}

theorem State.autoKey_pinned {y : Manual} (pinned : s.ctx.key.pin = some y) (v : Fin 12) :
    s.autoKey v a = { s with ctx := { s.ctx with key := { s.ctx.key with shadow := some ⟨v, a⟩ } } } := by
  simp [State.autoKey, State.writeKey, Field.write, pinned]

theorem State.autoKey_unpinned (unpinned : s.ctx.key.pin = none) (v : Fin 12) :
    s.autoKey v a = { s with
      ctx := { s.ctx with key := ⟨v, .source (.auto a), none, none⟩ }
      fault := { s.fault with flags := if a = .keytrk then s.fault.flags ||| 0x80#16 else s.fault.flags } } := by
  cases a <;> simp [State.autoKey, State.writeKey, Field.write, unpinned, State.raise, Flag.keyAdopt_mask]

theorem State.autoScale_pinned {y : Manual} (pinned : s.ctx.scale.pin = some y) (v : Fin 8) :
    s.autoScale v a = { s with ctx := { s.ctx with scale := { s.ctx.scale with shadow := some ⟨v, a⟩ } } } := by
  simp [State.autoScale, State.writeScale, Field.write, pinned]

theorem State.autoScale_unpinned (unpinned : s.ctx.scale.pin = none) (v : Fin 8) :
    s.autoScale v a = { s with ctx := { s.ctx with scale := ⟨v, .source (.auto a), none, none⟩ } } := by
  simp [State.autoScale, State.writeScale, Field.write, unpinned]

theorem State.autoChord_pinned {y : Manual} (pinned : s.ctx.chord.pin = some y) (v : Option Chord) :
    s.autoChord v a = { s with ctx := { s.ctx with chord := { s.ctx.chord with shadow := some ⟨v, a⟩ } } } := by
  simp [State.autoChord, State.writeChord, Field.write, pinned]

theorem State.autoChord_unpinned (unpinned : s.ctx.chord.pin = none) (v : Option Chord) :
    s.autoChord v a = { s with ctx := { s.ctx with chord := ⟨v, .source (.auto a), none, none⟩ } } := by
  simp [State.autoChord, State.writeChord, Field.write, unpinned]

end

end Sys2Proof.Machine


namespace Sys2Proof.Machine

/-! ### UNPIN (R60, R61) -/

/-- R60: the field after a release: the shadow's value and source where there is one. -/
def Field.released {α : Type} (f : Field α) : Field α :=
  match f.shadow with
  | some x => ⟨x.value, .source (.auto x.source), none, none⟩
  | none => ⟨f.value, f.owner, none, none⟩

section
variable {α : Type} {f : Field α} {m y : Manual}

theorem Field.release_unpinned (unpinned : f.pin = none) : f.release m = (f, .applied) := by
  simp [Field.release, unpinned]

theorem Field.release_outranked (pinned : f.pin = some y) (above : rank m < rank y) : f.release m = (f, .outranked) := by
  simp [Field.release, pinned, Nat.not_le.mpr above]

theorem Field.release_released (pinned : f.pin = some y) (le : rank y ≤ rank m) : f.release m = (f.released, .applied) := by
  cases shadow : f.shadow <;> simp [Field.release, Field.released, pinned, le, shadow]

end

/-- R54: whether a release gives KEY a value of the key tracker's. -/
def Field.adoptsKey (f : Field (Fin 12)) : Bool := f.pin.isSome && f.shadow.any fun x => x.source == .keytrk

section
variable (s : State) {src y : Manual} {x : Byte}

theorem State.answerUnpin_range (bad : 2 < x.toNat) : s.answerUnpin src x = (s, .range, []) := by
  obtain ⟨zero, one⟩ := Byte.above_one (b := x) (by omega)
  have two : x ≠ 2#8 := by rintro rfl; simp at bad
  simp only [State.answerUnpin, if_neg zero, if_neg one, if_neg two]
  rfl

theorem unpinAnswer_done {α : Type} (s t : State) (f : Field α) (bytes : α → List Byte) :
    unpinAnswer s t (f, .applied) bytes = (t.publishChanges s.ctx false, .done, fieldData f bytes) := rfl

theorem unpinAnswer_outranked {α : Type} (s t : State) (f : Field α) (bytes : α → List Byte) :
    unpinAnswer s t (f, .outranked) bytes = (s, .outranked, []) := rfl

theorem State.unpinKey_unpinned (unpinned : s.ctx.key.pin = none) :
    s.answerUnpin src 0#8 = (s, .done, fieldData s.ctx.key fun v => [finByte v]) := by
  simp [State.answerUnpin, Field.release_unpinned unpinned, unpinned, unpinAnswer_done]

theorem State.unpinKey_outranked (pinned : s.ctx.key.pin = some y) (above : rank src < rank y) :
    s.answerUnpin src 0#8 = (s, .outranked, []) := by
  simp [State.answerUnpin, Field.release_outranked pinned above, unpinAnswer_outranked]

theorem State.unpinKey_released (pinned : s.ctx.key.pin = some y) (le : rank y ≤ rank src) :
    s.answerUnpin src 0#8 =
      ((State.raiseIf { s with ctx := { s.ctx with key := s.ctx.key.released } } s.ctx.key.adoptsKey .keyAdopt).publishChanges s.ctx false,
        .done, fieldData s.ctx.key.released fun v => [finByte v]) := by
  simp [State.answerUnpin, Field.release_released pinned le, unpinAnswer_done, Field.adoptsKey]

theorem State.unpinScale_unpinned (unpinned : s.ctx.scale.pin = none) :
    s.answerUnpin src 1#8 = (s, .done, fieldData s.ctx.scale fun v => [finByte v]) := by
  simp [State.answerUnpin, Field.release_unpinned unpinned, unpinAnswer_done]

theorem State.unpinScale_outranked (pinned : s.ctx.scale.pin = some y) (above : rank src < rank y) :
    s.answerUnpin src 1#8 = (s, .outranked, []) := by
  simp [State.answerUnpin, Field.release_outranked pinned above, unpinAnswer_outranked]

theorem State.unpinScale_released (pinned : s.ctx.scale.pin = some y) (le : rank y ≤ rank src) :
    s.answerUnpin src 1#8 =
      (State.publishChanges { s with ctx := { s.ctx with scale := s.ctx.scale.released } } s.ctx false,
        .done, fieldData s.ctx.scale.released fun v => [finByte v]) := by
  simp [State.answerUnpin, Field.release_released pinned le, unpinAnswer_done]

theorem State.unpinChord_unpinned (unpinned : s.ctx.chord.pin = none) :
    s.answerUnpin src 2#8 = (s, .done, fieldData s.ctx.chord chordBytes) := by
  simp [State.answerUnpin, Field.release_unpinned unpinned, unpinAnswer_done]

theorem State.unpinChord_outranked (pinned : s.ctx.chord.pin = some y) (above : rank src < rank y) :
    s.answerUnpin src 2#8 = (s, .outranked, []) := by
  simp [State.answerUnpin, Field.release_outranked pinned above, unpinAnswer_outranked]

theorem State.unpinChord_released (pinned : s.ctx.chord.pin = some y) (le : rank y ≤ rank src) :
    s.answerUnpin src 2#8 =
      (State.publishChanges { s with ctx := { s.ctx with chord := s.ctx.chord.released } } s.ctx false,
        .done, fieldData s.ctx.chord.released chordBytes) := by
  simp [State.answerUnpin, Field.release_released pinned le, unpinAnswer_done]

theorem State.Quiet.exec_unpin {s t : State} {code : ReplyCode} {data : List Byte} (h : s.Quiet)
    (answers : s.answerUnpin src x = (t, code, data)) : exec (.unpin src x) s = .next (t.reply src ⟨0x13#8, code, data⟩) := by
  have still : t.due = s.due := by simpa using (congrArg (fun a : Answer => a.1.due) answers).symm
  exact congrArg Host.Outcome.next
    (h.commandMeeting_answers (c := .unpin) (body := fun u => u.answerUnpin src x) (by cases src <;> decide) answers still)

end

/-- R54, R169: the data of a field that nothing pins. -/
theorem fieldData_unpinned {α : Type} {f : Field α} (unpinned : f.pin = none) (bytes : α → List Byte) :
    fieldData f bytes = bytes f.value ++ [f.owner.sourceCode, 0#8] := by
  simp [fieldData, unpinned, holderByte]

/-- Settles O26: an automatic write by the pin of its field, and UNPIN by the holder's rank and the shadow. -/
theorem automaticWritesMeetThePin : Obligations.AutomaticWritesMeetThePin := by
  refine ⟨fun s a => ⟨fun y pinned v => State.autoKey_pinned pinned v, fun y pinned v => State.autoScale_pinned pinned v,
      fun y pinned v => State.autoChord_pinned pinned v, fun unpinned v => State.autoKey_unpinned unpinned v,
      fun unpinned v => State.autoScale_unpinned unpinned v, fun unpinned v => State.autoChord_unpinned unpinned v⟩,
    fun s src field quiet => ⟨fun bad => quiet.exec_unpin (s.answerUnpin_range bad), ?_, ?_, ?_⟩⟩
  · rintro rfl
    refine ⟨fun unpinned => ?_, fun y pinned above => quiet.exec_unpin (s.unpinKey_outranked pinned above), fun y pinned le => ?_⟩
    · have answers := s.unpinKey_unpinned (src := src) unpinned
      rw [fieldData_unpinned unpinned] at answers
      exact quiet.exec_unpin answers
    · rw [quiet.exec_unpin (s.unpinKey_released pinned le)]
      cases shadow : s.ctx.key.shadow with
      | none => simp [Field.released, Field.adoptsKey, shadow, fieldData, holderByte] <;> rfl
      | some x =>
        obtain ⟨v, a⟩ := x
        cases a <;> simp [Field.released, Field.adoptsKey, shadow, pinned, fieldData, holderByte] <;> rfl
  · rintro rfl
    refine ⟨fun unpinned => ?_, fun y pinned above => quiet.exec_unpin (s.unpinScale_outranked pinned above), fun y pinned le => ?_⟩
    · have answers := s.unpinScale_unpinned (src := src) unpinned
      rw [fieldData_unpinned unpinned] at answers
      exact quiet.exec_unpin answers
    · rw [quiet.exec_unpin (s.unpinScale_released pinned le)]
      cases shadow : s.ctx.scale.shadow <;> simp [Field.released, shadow, fieldData, holderByte] <;> rfl
  · rintro rfl
    refine ⟨fun unpinned => ?_, fun y pinned above => quiet.exec_unpin (s.unpinChord_outranked pinned above), fun y pinned le => ?_⟩
    · have answers := s.unpinChord_unpinned (src := src) unpinned
      rw [fieldData_unpinned unpinned] at answers
      exact quiet.exec_unpin answers
    · rw [quiet.exec_unpin (s.unpinChord_released pinned le)]
      cases shadow : s.ctx.chord.shadow <;> simp [Field.released, shadow, fieldData, holderByte]

end Sys2Proof.Machine


namespace Sys2Proof.Machine

/-! ### SWITCHES (R63, R66) -/

/-- R66: a new switch word, and the flush where CHORD goes from set to clear. -/
theorem State.setSwitches_eq (s : State) (w : BitVec 8) :
    s.setSwitches w = { s with
      ctx := { s.ctx with switches := w }
      queue := if s.ctx.switches.getLsbD 5 = true ∧ w.getLsbD 5 = false then [] else s.queue
      matcher := if s.ctx.switches.getLsbD 5 = true ∧ w.getLsbD 5 = false then s.matcher.map (fun m => { m with discarded := true })
        else s.matcher } := by
  obtain ⟨clears, e⟩ | ⟨keeps, e⟩ := s.setSwitches_cases w <;> rw [e]
  · have clears : s.ctx.switches.getLsbD 5 = true ∧ w.getLsbD 5 = false := clears
    simp only [if_pos clears, State.flushQueue]
  · have keeps : ¬(s.ctx.switches.getLsbD 5 = true ∧ w.getLsbD 5 = false) := keeps
    simp only [if_neg keeps]

/-- R63: the switches that a write may change are those that are not locked for its source. -/
theorem freeSwitches_free {lock : BitVec 8} {src : Manual} {i : Nat} (h : i < 8) (free : ¬(src ≠ .desk ∧ lock.getLsbD i = true)) :
    (freeSwitches lock src).getLsbD i = true := by
  by_cases desk : src = .desk
  · simp only [freeSwitches, if_pos desk, BitVec.getLsbD_allOnes, h, decide_true]
  · have open_ : lock.getLsbD i = false := by simpa [desk] using free
    simp only [freeSwitches, if_neg desk, BitVec.getLsbD_not, open_, h, decide_true, Bool.not_false, Bool.and_self]

/-- R70: a write that leaves the context as it was is published as no change. -/
theorem State.publishChanges_ctx_same {s t : State} (same : t.ctx = s.ctx) : t.publishChanges s.ctx false = t := by
  rw [← same, State.publishChanges_self]

/-- R63: what each form asks of a switch. -/
def switchWanted (form : Nat) (old arg : BitVec 8) (i : Nat) : Bool :=
  if form = 0 then arg.getLsbD i else if form = 1 then old.getLsbD i || arg.getLsbD i else old.getLsbD i && !arg.getLsbD i

/-- R63: the word and the masked set of a write with each form, bit by bit: a free switch takes what is asked of it and is not
masked; another stands, and is masked where a change is asked of it. -/
def SwitchBits (form : Nat) (old arg free word masked : BitVec 8) (i : Nat) : Prop :=
  (free.getLsbD i = false → word.getLsbD i = old.getLsbD i ∧ masked.getLsbD i = (switchWanted form old arg i != old.getLsbD i)) ∧
    (free.getLsbD i = true → word.getLsbD i = switchWanted form old arg i ∧ masked.getLsbD i = false)

section
variable (old arg free : BitVec 8) {i : Nat}

theorem switchBits_put (h : i < 8) : SwitchBits 0 old arg free ((old &&& ~~~free) ||| (arg &&& free)) ((old ^^^ arg) &&& ~~~free) i := by
  constructor <;> intro bit <;>
    simp only [switchWanted, BitVec.getLsbD_or, BitVec.getLsbD_and, BitVec.getLsbD_xor, BitVec.getLsbD_not, bit, h] <;>
    cases old.getLsbD i <;> cases arg.getLsbD i <;> simp

theorem switchBits_set (h : i < 8) : SwitchBits 1 old arg free (old ||| (arg &&& free)) (arg &&& ~~~old &&& ~~~free) i := by
  constructor <;> intro bit <;>
    simp only [switchWanted, BitVec.getLsbD_or, BitVec.getLsbD_and, BitVec.getLsbD_not, bit, h] <;>
    cases old.getLsbD i <;> cases arg.getLsbD i <;> simp

theorem switchBits_clear (h : i < 8) : SwitchBits 2 old arg free (old &&& ~~~(arg &&& free)) (arg &&& old &&& ~~~free) i := by
  constructor <;> intro bit <;>
    simp only [switchWanted, BitVec.getLsbD_and, BitVec.getLsbD_not, bit, h] <;>
    cases old.getLsbD i <;> cases arg.getLsbD i <;> simp

end

/-- R63: with nothing due, a SWITCHES write with each form. -/
theorem State.Quiet.exec_switches {s : State} (h : s.Quiet) {src : Manual} {arg : Byte} {form : Nat} {c : Instr}
    (listed : (form, c) ∈ [(0, Instr.switchesPut src arg), (1, .switchesSet src arg), (2, .switchesClear src arg)]) :
    ∃ word masked, exec c s = .next (((s.setSwitches word).publishChanges s.ctx false).reply src ⟨0x14#8, .done, [word, masked]⟩) ∧
      ∀ i, i < 8 → SwitchBits form s.ctx.switches arg (freeSwitches s.ctx.lockMask src) word masked i := by
  have permitted : src ∈ Cmd.switches.sources := by cases src <;> decide
  simp only [List.mem_cons, Prod.mk.injEq, List.not_mem_nil, or_false] at listed
  obtain ⟨rfl, rfl⟩ | ⟨rfl, rfl⟩ | ⟨rfl, rfl⟩ := listed
  · exact ⟨_, _, congrArg Host.Outcome.next (h.command_answers (body := fun t => t.answerPut src arg) permitted rfl), fun i => switchBits_put _ _ _⟩
  · exact ⟨_, _, congrArg Host.Outcome.next (h.command_answers (body := fun t => t.answerSet src arg) permitted rfl), fun i => switchBits_set _ _ _⟩
  · exact ⟨_, _, congrArg Host.Outcome.next (h.command_answers (body := fun t => t.answerClear src arg) permitted rfl), fun i => switchBits_clear _ _ _⟩

/-- Settles O27: a write of each form, and its bits by whether the switch is free. -/
theorem switchesChangeFreeSwitches : Obligations.SwitchesChangeFreeSwitches := by
  refine ⟨fun s src arg quiet form c listed => ?_, fun src form arg above => ?_⟩
  · obtain ⟨word, masked, ran, bits⟩ := quiet.exec_switches listed
    rw [s.setSwitches_eq word] at ran
    exact ⟨word, masked, ran, fun i lt locked => (bits i lt).1 (freeSwitches_locked locked.1 locked.2),
      fun i lt free => (bits i lt).2 (freeSwitches_free lt free), fun same => State.publishChanges_ctx_same (by rw [same])⟩
  · exact (decodeRecord_read (by cases src <;> decide) (by simp [Cmd.lengths])).trans (decodeArgs_switches_form src above arg)

/-! ### HUSH and RESUME (R67, R68, R136, R137, R140) -/

section
variable {s : State} {src y : Manual}

theorem State.Quiet.exec_hush {t : State} {code : ReplyCode} {data : List Byte} (h : s.Quiet)
    (answers : s.answerHush src = (t, code, data)) : exec (.hush src) s = .next (t.reply src ⟨0x16#8, code, data⟩) :=
  congrArg Host.Outcome.next (h.command_answers (c := .hush) (body := fun u => u.answerHush src) (by cases src <;> decide) answers)

theorem State.Quiet.exec_resume {t : State} {code : ReplyCode} {data : List Byte} (h : s.Quiet)
    (answers : s.answerResume src = (t, code, data)) : exec (.resume src) s = .next (t.reply src ⟨0x17#8, code, data⟩) :=
  congrArg Host.Outcome.next (h.command_answers (c := .resume) (body := fun u => u.answerResume src) (by cases src <;> decide) answers)

theorem State.answerHush_takes (free : s.ctx.hush = none) :
    s.answerHush src = (State.cutVoices { s with ctx := { s.ctx with hush := some src } }, .done, [0#8, manualCode src]) := by
  simp [State.answerHush, free]

theorem State.answerHush_masked (held : s.ctx.hush = some y) : s.answerHush src = (s, .done, [1#8, manualCode y]) := by
  simp [State.answerHush, held]

theorem State.answerResume_free (free : s.ctx.hush = none) : s.answerResume src = (s, .done, []) := by
  simp [State.answerResume, free, answer]

theorem State.answerResume_outranked (held : s.ctx.hush = some y) (above : rank src < rank y) : s.answerResume src = (s, .outranked, []) := by
  simp [State.answerResume, held, Nat.not_le.mpr above, answer]

theorem State.answerResume_releases (held : s.ctx.hush = some y) (le : rank y ≤ rank src) :
    s.answerResume src = (State.retest { s with ctx := { s.ctx with hush := none } }, .done, []) := by
  simp [State.answerResume, held, le, answer]

/-- R137: with no note-on waiting the decider's term of the sound condition is a note reported. -/
theorem State.noteTerm_reached {s : State} (h : s.due.noteOnWaits = false) : s.noteTerm = s.decider.state.note.isSome := by
  simp [State.noteTerm, h]

/-- R137: the terms of the sound condition. -/
theorem State.soundCondition_eq (s : State) (r : RenderRecord) :
    s.soundCondition r =
      decide (r.enable = true ∧ r.hasTarget = true ∧ s.noteTerm = true ∧ s.fault.output = .run ∧ s.ctx.hush = none) := by
  rw [Bool.eq_iff_iff]
  simp [State.soundCondition, and_assoc]

end

/-- R136, R137: a voice that leaves IDLE takes a pending shift at once. -/
theorem RenderRecord.leaveIdle_eq (r : RenderRecord) :
    r.leaveIdle = { r.adoptShift with state := .rising, timer := 0, boundaryDue := false } := by
  cases pending : r.pending <;> simp [RenderRecord.leaveIdle, RenderRecord.adoptShift, pending]

section
variable {r : RenderRecord}

theorem RenderRecord.retest_true_idle (h : r.state = .idle) : r.retest true = r.leaveIdle := by simp [RenderRecord.retest, h]

theorem RenderRecord.retest_true_falling (h : r.state = .falling) :
    r.retest true = { r with state := if r.fade = 8 then .sounding else .rising } := by simp [RenderRecord.retest, h]

theorem RenderRecord.retest_true_sounds (h : r.state = .rising ∨ r.state = .sounding) : r.retest true = r := by
  obtain h | h := h <;> simp [RenderRecord.retest, h]

theorem RenderRecord.retest_false_sounds (h : r.state = .rising ∨ r.state = .sounding) :
    r.retest false = { r with state := if r.fade = 0 then .idle else .falling } := by
  obtain h | h := h <;> simp [RenderRecord.retest, h]

theorem RenderRecord.retest_false_silent (h : r.state = .idle ∨ r.state = .falling) : r.retest false = r := by
  obtain h | h := h <;> simp [RenderRecord.retest, h]

end

/-- Settles O29: the two commands by the holder's rank, and the sound condition test by the voice's state. -/
theorem hushSilencesAndResumeReleases : Obligations.HushSilencesAndResumeReleases := by
  refine fun s src quiet => ⟨fun free => ?_, fun y held => ?_, fun free => ?_, fun y held above => ?_, fun y held le => ?_, fun r =>
    ⟨fun idle => ?_, fun falling => ?_, fun sounds => ⟨?_, ?_⟩, fun silent => ?_⟩⟩
  · exact quiet.exec_hush (s.answerHush_takes free)
  · exact quiet.exec_hush (s.answerHush_masked held)
  · exact quiet.exec_resume (s.answerResume_free free)
  · exact quiet.exec_resume (s.answerResume_outranked held above)
  · rw [quiet.exec_resume (s.answerResume_releases held le)]
    have term : s.noteTerm = s.decider.state.note.isSome := State.noteTerm_reached (by rw [quiet]; rfl)
    have sounds (r : RenderRecord) : State.soundCondition { s with ctx := { s.ctx with hush := none } } r =
        decide (r.enable = true ∧ r.hasTarget = true ∧ s.decider.state.note ≠ none ∧ s.fault.output = .run) := by
      rw [State.soundCondition_eq, show State.noteTerm { s with ctx := { s.ctx with hush := none } } = s.noteTerm from rfl, term]
      simp [Option.isSome_iff_ne_none]
    simp only [State.retest, State.mapRen, sounds]
  · rw [RenderRecord.retest_true_idle idle, RenderRecord.leaveIdle_eq]
    rfl
  · exact RenderRecord.retest_true_falling falling
  · exact RenderRecord.retest_true_sounds sounds
  · exact RenderRecord.retest_false_sounds sounds
  · exact RenderRecord.retest_false_silent silent

end Sys2Proof.Machine

/-! ## Publications and the voices (chapters 4 and 7) -/

namespace Sys2Proof.Machine

/-! ### The chord queue's head (R96) -/

/-- R96: CHORD after a note operation has taken the head `x` of the chord queue, if it took one. -/
def Field.headed (f : Field (Option Chord)) : Option (Option Chord) → Field (Option Chord)
  | some v => (f.write v (.auto .chordline) false).1
  | none => f

theorem Field.headed_eq (f : Field (Option Chord)) (x : Option (Option Chord)) :
    f.headed x = match x with
      | some v => match f.pin with
        | none => ⟨v, .source (.auto .chordline), none, none⟩
        | some _ => { f with shadow := some ⟨v, .chordline⟩ }
      | none => f := by
  cases x with
  | none => rfl
  | some v => cases pin : f.pin <;> simp [Field.headed, Field.write, pin]

theorem State.takeHead_eq (s : State) (t : Trigger) :
    s.takeHead t = { s with
      queue := if (queueHead s.queue t).isSome then s.queue.tail else s.queue
      ctx := { s.ctx with chord := s.ctx.chord.headed (queueHead s.queue t) } } := by
  cases head : queueHead s.queue t <;> simp [State.takeHead, head, Field.headed, State.autoChord, State.writeChord]

theorem queueHead_onset (q : List QueueEntry) :
    queueHead q .onset = match q with
      | ⟨v, .onset⟩ :: _ => some v
      | _ => none := by
  match q with
  | [] => rfl
  | ⟨_, .onset⟩ :: _ => rfl
  | ⟨_, .phrase⟩ :: _ => rfl

theorem queueHead_phrase (q : List QueueEntry) :
    queueHead q .phrase = match q with
      | ⟨v, .phrase⟩ :: _ => some v
      | _ => none := by
  match q with
  | [] => rfl
  | ⟨_, .onset⟩ :: _ => rfl
  | ⟨_, .phrase⟩ :: _ => rfl

/-- R55, R96: the value of CHORD after an ONSET head is taken. -/
theorem State.headed_value (s : State) :
    (s.ctx.chord.headed (queueHead s.queue .onset)).value = match s.queue with
      | ⟨v, .onset⟩ :: _ => if s.ctx.chord.pin = none then v else s.ctx.chord.value
      | _ => s.ctx.chord.value := by
  rw [queueHead_onset]
  match s.queue with
  | [] => rfl
  | ⟨v, .onset⟩ :: _ => cases pin : s.ctx.chord.pin <;> simp [Field.headed, Field.write, pin]
  | ⟨_, .phrase⟩ :: _ => rfl

/-! ### What a publication makes of a voice (R117, R129, R137) -/

theorem State.tests_retest (s : State) (v : Voice) : s.Tests v { v with ren := v.ren.retest (s.soundCondition v.ren) } := by
  rw [State.soundCondition_eq]
  rfl

theorem State.deliver_takes (s : State) (p : Publication) (i : Fin 4) : s.VoiceTakes p i (s.voices.get i) ((s.deliver p).voices.get i) := by
  rw [State.deliver_voice]
  exact s.tests_retest _

/-! ### The list of changes (R70, R71) -/

theorem xor_bit {a b : BitVec 8} (i : Nat) : (a ^^^ b).getLsbD i = true ↔ a.getLsbD i ≠ b.getLsbD i := by
  cases ha : a.getLsbD i <;> cases hb : b.getLsbD i <;> simp [ha, hb]

theorem Changes.any_iff (c : Changes) :
    c.any = true ↔ c.key = true ∨ c.scale = true ∨ c.chord = true ∨ c.usability = true ∨ c.table = true ∨ c.switches ≠ 0#8 := by
  simp [Changes.any, Changes.ordinary, or_assoc]

theorem Changes.ordinary_iff (c : Changes) :
    c.ordinary = true ↔ c.key = true ∨ c.scale = true ∨ c.chord = true ∨ c.usability = true ∨ c.table = true := by
  simp [Changes.ordinary, or_assoc]

/-- R70: a CONTEXT publication is made exactly on a change. -/
theorem State.publishChanges_eq (s : State) (before : Context) (table : Bool) :
    s.publishChanges before table =
      if (before.changes s.ctx table).any = true then s.deliver ⟨.context, s.ctx.published, before.changes s.ctx table⟩ else s := by
  obtain ⟨h, e⟩ | ⟨h, e⟩ := s.publishChanges_cases before table <;> simp [e, h]

/-! ### The voice at a publication (R113, R114, R116 to R118, R126, R127) -/

section
variable {v : Voice} {e : Surroundings} {i : Fin 4} {n : Nat}

/-- R126, R127: the goal formed, and handed on when it is new. -/
theorem Voice.setGoal_eq (v : Voice) (dev : Int) (t n : Nat) :
    v.setGoal dev t n = ⟨{ v.res with goal := some (32 * ((t : Int) - n)) }, v.handed v.res.plan dev (32 * ((t : Int) - n))⟩ := by
  obtain ⟨same, e⟩ | ⟨new, e⟩ := v.setGoal_cases dev t n
  · rw [e, Voice.handed, if_pos same, ← same]
  · rw [e, Voice.handed, if_neg new]

/-- R116, R125 to R127: a resolution, of a voice whose goal and renderer record are those of `u`. -/
theorem Voice.resolveAt_resolves {u : Voice} (goal : v.res.goal = u.res.goal) (ren : v.ren = u.ren) :
    u.Resolves e v.res.plan n (v.resolveAt e n) := by
  rcases note : workingNote e.tables e.copy v.res.plan n with ⟨_ | w, path⟩
  · simp [Voice.Resolves, note, Voice.resolveAt, Voice.handedNone, RenderRecord.loseTarget, ren]
  · simp [Voice.Resolves, note, Voice.resolveAt, Voice.setGoal_eq, Voice.handed, goal, ren]

theorem Voice.resolveAt_kept (v : Voice) (e : Surroundings) (n : Nat) :
    (v.resolveAt e n).res.plan = v.res.plan ∧ (v.resolveAt e n).res.binding = v.res.binding ∧ (v.resolveAt e n).res.staged = v.res.staged := by
  rcases note : workingNote e.tables e.copy v.res.plan n with ⟨_ | w, path⟩ <;> simp [Voice.resolveAt, note, Voice.setGoal_eq]

/-- R113: what an adoption makes of a voice whose goal and renderer record are those of `u`. -/
theorem Voice.adopt_adopts {u : Voice} (goal : v.res.goal = u.res.goal) (ren : v.ren = u.ren) (p : Staged) :
    u.Adopts e i p (v.adopt e i p) := by
  have dropped : switchSet e.copy.switches (.enable i) = false ∨ e.note = none → v.adopt e i p = (v.takeStaged p).dropTarget := by
    rintro (off | none)
    · simp [Voice.adopt, Surroundings.enabled, off]
    · simp [Voice.adopt, none]
  have taken {n : Nat} (on : switchSet e.copy.switches (.enable i) = true) (note : e.note = some n) :
      v.adopt e i p = (v.takeStaged p).resolveAt e n := by simp [Voice.adopt, Surroundings.enabled, on, note]
  have stands : (v.adopt e i p).res.plan = p.plan ∧ (v.adopt e i p).res.binding = p.origin ∧ (v.adopt e i p).res.staged = none := by
    rcases on : switchSet e.copy.switches (.enable i) with _ | _
    · rw [dropped (.inl on)]; exact ⟨rfl, rfl, rfl⟩
    · rcases note : e.note with _ | n
      · rw [dropped (.inr note)]; exact ⟨rfl, rfl, rfl⟩
      · rw [taken on note]; exact (v.takeStaged p).resolveAt_kept e n
  refine ⟨stands.1, stands.2.1, stands.2.2, fun n on note => ?_, fun off => ?_⟩
  · rw [taken on note]
    exact Voice.resolveAt_resolves (v := v.takeStaged p) goal ren
  · rw [dropped off]
    exact ⟨rfl, rfl, rfl, by rw [Voice.handedNone, ← ren]; rfl⟩

/-- Table 4.4: the enable of voice `i` is bit `i`. -/
theorem Switch.enable_bit (i : Fin 4) : (Switch.enable i).bit = i.val := by
  match i with
  | 0 => rfl
  | 1 => rfl
  | 2 => rfl
  | 3 => rfl

theorem forcedBySwitch_iff (c : Changes) (e : Surroundings) (i : Fin 4) :
    forcedBySwitch c e i = true ↔ (c.switches.getLsbD i.val = true ∧ switchSet e.copy.switches (.enable i) = true) ∨
      (c.switches.getLsbD 4 = true ∧ switchSet e.copy.switches .freeze = false) := by
  rw [show c.switches.getLsbD i.val = switchSet c.switches (.enable i) by rw [switchSet, Switch.enable_bit],
    show c.switches.getLsbD 4 = switchSet c.switches .freeze from rfl]
  simp [forcedBySwitch, Surroundings.enabled]

theorem Voice.heedsOrdinary_iff (v : Voice) (e : Surroundings) :
    v.heedsOrdinary e = true ↔ switchSet e.copy.switches .freeze = false ∨ v.res.target = none := by
  simp [Voice.heedsOrdinary]

/-- R118: whether a forced trigger is carried, or an ordinary one heeded. -/
theorem Voice.triggered_iff (v : Voice) (e : Surroundings) (c : Changes) (i : Fin 4) (ordinary : Bool) :
    (e.enabled i && (forcedBySwitch c e i || (ordinary && v.heedsOrdinary e))) = true ↔
      switchSet e.copy.switches (.enable i) = true ∧
        (((c.switches.getLsbD i.val = true ∧ switchSet e.copy.switches (.enable i) = true) ∨
            (c.switches.getLsbD 4 = true ∧ switchSet e.copy.switches .freeze = false)) ∨
          (ordinary = true ∧ (switchSet e.copy.switches .freeze = false ∨ v.res.target = none))) := by
  rw [Bool.and_eq_true, Bool.or_eq_true, Bool.and_eq_true, forcedBySwitch_iff, v.heedsOrdinary_iff]
  rfl

theorem Voice.atNoteStart_staged {p : Staged} (staged : v.res.staged = some p) (c : Changes) :
    v.Adopts { e with note := some n } i p (v.atNoteStart e c i n) := by
  rw [show v.atNoteStart e c i n = v.adopt { e with note := some n } i p by simp [Voice.atNoteStart, staged]]
  exact Voice.adopt_adopts rfl rfl p

theorem Voice.atNoteStart_resolves {c : Changes} (unstaged : v.res.staged = none)
    (triggered : (e.enabled i && (forcedBySwitch c e i || v.heedsOrdinary e)) = true) : v.atNoteStart e c i n = v.resolveAt e n := by
  simp only [Voice.atNoteStart, unstaged, triggered, if_true]

theorem Voice.atNoteStart_stands {c : Changes} (unstaged : v.res.staged = none)
    (untriggered : ¬(e.enabled i && (forcedBySwitch c e i || v.heedsOrdinary e)) = true) :
    v.atNoteStart e c i n = match v.res.target with
      | some t => ⟨{ v.res with goal := some (32 * ((t : Int) - n)) }, v.handed v.res.plan e.dev (32 * ((t : Int) - n))⟩
      | none => v := by
  simp only [Voice.atNoteStart, unstaged, if_neg untriggered, Voice.setGoal_eq] <;> rfl

theorem Voice.atContext_resolves {c : Changes} (note : e.note = some n)
    (triggered : (e.enabled i && (forcedBySwitch c e i || (c.ordinary && v.heedsOrdinary e))) = true) : v.atContext e c i = v.resolveAt e n := by
  simp only [Voice.atContext, note, triggered, if_true]

theorem Voice.atContext_stands {c : Changes}
    (untriggered : ¬(e.enabled i && (forcedBySwitch c e i || (c.ordinary && v.heedsOrdinary e))) = true) : v.atContext e c i = v := by
  cases note : e.note <;> simp only [Voice.atContext, note, if_neg untriggered]

end

/-! ### The list of a note start -/

theorem State.noteStart_eq (s : State) (k : PublicationKind) :
    s.noteStart k = State.deliver (s.takeHead .onset).cueOnset.noteTaken ⟨k, (s.takeHead .onset).cueOnset.ctx.published,
      s.ctx.noteChanges (s.takeHead .onset).ctx (s.takeHead .onset).cueOnset.ctx⟩ := rfl

/-- R71: the list of a note start, against the context whose queue head `x` was taken. -/
theorem Context.noteChanges_lists (before after : Context) (x : Option (Option Chord)) :
    let c := before.noteChanges { before with chord := before.chord.headed x } after
    (c.key = true ↔ before.key.value ≠ after.key.value) ∧ (c.scale = true ↔ before.scale.value ≠ after.scale.value) ∧
      (c.chord = true ↔ before.chord.value ≠ (before.chord.headed x).value ∨ (before.chord.headed x).value ≠ after.chord.value) ∧
      (c.usability = true ↔ before.usable ≠ after.usable) ∧ c.table = false ∧
      ∀ i, i < 8 → (c.switches.getLsbD i = true ↔ before.switches.getLsbD i ≠ after.switches.getLsbD i) := by
  refine ⟨?_, ?_, Context.noteChanges_chord _ _ _, ?_, rfl, fun i _ => ?_⟩
  · simp [Context.noteChanges, Context.changes]
  · simp [Context.noteChanges, Context.changes]
  · simp [Context.noteChanges]
  · simp [Context.noteChanges, Context.changes]

theorem Context.changes_lists (before after : Context) (table : Bool) :
    let c := before.changes after table
    (c.key = true ↔ before.key.value ≠ after.key.value) ∧ (c.scale = true ↔ before.scale.value ≠ after.scale.value) ∧
      (c.chord = true ↔ before.chord.value ≠ after.chord.value) ∧ (c.usability = true ↔ before.usable ≠ after.usable) ∧ c.table = table ∧
      ∀ i, i < 8 → (c.switches.getLsbD i = true ↔ before.switches.getLsbD i ≠ after.switches.getLsbD i) := by
  refine ⟨?_, ?_, ?_, ?_, rfl, fun i _ => xor_bit i⟩ <;> simp [Context.changes]

theorem State.takeNoteStart_due {s : State} {k : PublicationKind} (due : s.due.start = some k) : s.takeNoteStart = s.noteStart k := by
  simp [State.takeNoteStart, due]

/-- Settles O40: the publication's own part, its list, and the voice by the kind of the publication. -/
theorem publicationsResolveTheVoices : Obligations.PublicationsResolveTheVoices := by
  refine ⟨fun s p => ⟨rfl, s.deliver_takes p⟩, fun s => ⟨fun n due => ?_, fun m n due => ?_, fun n due => ?_, fun k => ?_, fun n => ?_,
    fun before table => ?_⟩, fun v e c i n old => ⟨fun k kind => ?_, fun on triggered => ?_, fun stands => ?_, rfl, rfl⟩⟩
  · exact s.takeNoteStart_due (by simp [Due.start, due])
  · exact s.takeNoteStart_due (by simp [Due.start, due])
  · simp [State.takeNoteOff, due]
  · refine ⟨_, _, s.noteStart_eq k, ?_⟩
    have lists := s.ctx.noteChanges_lists (s.takeHead .onset).cueOnset.ctx (queueHead s.queue .onset)
    rw [State.headed_value] at lists
    rw [show (s.takeHead .onset).ctx = { s.ctx with chord := s.ctx.chord.headed (queueHead s.queue .onset) } by rw [s.takeHead_eq]]
    exact lists
  · exact ⟨(s.takeHead .phrase).noteTaken, rfl⟩
  · obtain ⟨key, scale, chord, usability, carried, switches⟩ := before.changes_lists s.ctx table
    refine ⟨key, scale, chord, usability, carried, switches, ?_⟩
    rw [s.publishChanges_eq, if_congr (Changes.any_iff _) rfl rfl]
  · have started : v.atPublication ⟨k, e.copy, c⟩ { e with note := some n } i = v.atNoteStart { e with note := some n } c i n := by
      obtain rfl | rfl := kind <;> rfl
    have triggers := v.triggered_iff { e with note := some n } c i true
    simp only [Bool.true_and, true_and] at triggers
    intro start
    rw [show start = _ from started]
    refine ⟨fun p staged => Voice.atNoteStart_staged staged c, fun unstaged on triggered => ?_, fun unstaged stands => ?_⟩
    · rw [Voice.atNoteStart_resolves unstaged (triggers.mpr ⟨on, triggered⟩)]
      exact ⟨v.resolveAt_kept _ _, Voice.resolveAt_resolves rfl rfl⟩
    · refine Voice.atNoteStart_stands unstaged (mt triggers.mp ?_)
      rintro ⟨on, triggered⟩
      exact stands.elim (· on) fun ⟨unforced, unheeded⟩ => triggered.elim unforced unheeded
  · have triggers := v.triggered_iff { e with note := some n } c i c.ordinary
    rw [Changes.ordinary_iff] at triggers
    have resolved : v.atPublication ⟨.context, e.copy, c⟩ { e with note := some n } i = v.resolveAt { e with note := some n } n :=
      Voice.atContext_resolves rfl (triggers.mpr ⟨on, triggered⟩)
    rw [resolved]
    exact ⟨v.resolveAt_kept _ _, Voice.resolveAt_resolves rfl rfl⟩
  · have triggers := v.triggered_iff { e with note := some n } c i c.ordinary
    rw [Changes.ordinary_iff] at triggers
    refine Voice.atContext_stands (e := { e with note := some n }) (c := c) (mt triggers.mp ?_)
    rintro ⟨on, triggered⟩
    obtain off | ⟨unforced, unheeded⟩ := stands
    · exact off on
    · exact triggered.elim unforced fun ⟨listed, heeds⟩ => unheeded.elim (· listed) (· heeds)

end Sys2Proof.Machine

/-! ## The note-off operation (R72) -/

namespace Sys2Proof.Machine

/-- R137: a note event that has been taken no longer keeps the decider's term back. -/
theorem State.noteTerm_noteTaken (s : State) : s.noteTaken.noteTerm = s.decider.state.note.isSome :=
  State.noteTerm_reached (s := s.noteTaken) rfl

/-- R117, R137: a voice at the publication of a note-off: its copied enable, and its sound condition tested afresh. -/
theorem State.noteOff_voice (s : State) (n : Nat) (i : Fin 4) :
    (s.noteOff n).voices.get i = ⟨(s.voices.get i).res, RenderRecord.retest
      { (s.voices.get i).ren with enable := switchSet s.ctx.switches (.enable i) }
      (decide (switchSet s.ctx.switches (.enable i) = true ∧ (s.voices.get i).ren.hasTarget = true ∧ s.decider.state.note ≠ none ∧
        s.fault.output = .run ∧ s.ctx.hush = none))⟩ := by
  rw [State.noteOff, State.publishNote, State.publish, State.deliver_voice]
  simp only [State.soundCondition_eq, State.noteTerm_noteTaken, State.takeHead_eq, ← Option.isSome_iff_ne_none]
  rfl

/-- R72, R96: the note-off operation takes the head of the queue, publishes, and leaves no note event due. -/
theorem State.noteOff_takes (s : State) (n : Nat) :
    s.noteOff n = { s with
      queue := if (queueHead s.queue .phrase).isSome then s.queue.tail else s.queue
      ctx := { s.ctx with chord := s.ctx.chord.headed (queueHead s.queue .phrase) }
      due := { s.due with note := none }, copy := (s.noteOff n).copy, voices := (s.noteOff n).voices } := by
  simp [State.noteOff, State.takeHead_eq, State.ext_iff]

/-- Settles O31: the operation when it is due, and the row when it is not. -/
theorem noteOffIsOneOperation : Obligations.NoteOffIsOneOperation := by
  refine ⟨fun s n due => ⟨s.noteOff n, congrArg Host.Outcome.next (by simp [State.takeNoteOff, due]), ?_, ?_, fun i => ?_⟩, fun s none => ?_⟩
  · have takes := s.noteOff_takes n
    rw [queueHead_phrase, Field.headed_eq] at takes
    exact takes
  · rfl
  · exact s.noteOff_voice n i
  · have stands : s.takeNoteOff = s := by
      rcases due : s.due.note with _ | _ | _ | n
      case some.noteOff => exact absurd due (none n)
      all_goals simp [State.takeNoteOff, due]
    exact congrArg Host.Outcome.next stands

end Sys2Proof.Machine

/-! ## What the marks of a proposal and of a DWELL expiry leave alone (log entries 1 and 26)

A waiting proposal and a DWELL expiry stand in the due marks, and no operation of a block reads them: each commutes with
setting them. -/

namespace Sys2Proof.Machine

/-- The state with other marks of a waiting proposal and of a DWELL expiry. -/
def State.marked (s : State) (p : Option (Fin 12)) (d : Bool) : State := { s with due := { s.due with proposal := p, dwell := d } }

/-- The answer of a block whose state has other marks. -/
def Answer.marked (a : Answer) (p : Option (Fin 12)) (d : Bool) : Answer := (a.1.marked p d, a.2)

section
variable (s : State) (p : Option (Fin 12)) (d : Bool)

@[simp] theorem State.marked_frame :
    (s.marked p d).asp = s.asp ∧ (s.marked p d).rate = s.rate ∧ (s.marked p d).tracker = s.tracker ∧ (s.marked p d).decider = s.decider ∧
      (s.marked p d).tables = s.tables ∧ (s.marked p d).ctx = s.ctx ∧ (s.marked p d).line = s.line ∧ (s.marked p d).matcher = s.matcher ∧
      (s.marked p d).queue = s.queue ∧ (s.marked p d).key = s.key ∧ (s.marked p d).copy = s.copy ∧ (s.marked p d).voices = s.voices ∧
      (s.marked p d).renderer = s.renderer ∧ (s.marked p d).cue = s.cue ∧ (s.marked p d).ports = s.ports ∧ (s.marked p d).fault = s.fault ∧
      (s.marked p d).draws = s.draws ∧ (s.marked p d).pending = s.pending := by
  simp [State.marked]

theorem State.marked_due : (s.marked p d).due = { s.due with proposal := p, dwell := d } := rfl

theorem State.marked_marked (q : Option (Fin 12)) (e : Bool) : (s.marked p d).marked q e = s.marked q e := rfl

theorem State.marked_self : s.marked s.due.proposal s.due.dwell = s := rfl

/-- A choice between two states, each with the marks. -/
theorem State.marked_ite (c : Prop) [Decidable c] (t : State) :
    (if c then s.marked p d else t.marked p d) = (if c then s else t).marked p d :=
  (apply_ite (fun u : State => u.marked p d) c s t).symm

theorem Answer.marked_ite (c : Prop) [Decidable c] (a b : Answer) : (if c then a.marked p d else b.marked p d) = (if c then a else b).marked p d :=
  (apply_ite (fun x : Answer => x.marked p d) c a b).symm

/-! ### Publications, queue, fields -/

theorem State.marked_raiseIf (b : Bool) (f : Flag) : (s.marked p d).raiseIf b f = (s.raiseIf b f).marked p d := by cases b <;> rfl

theorem State.marked_publishChanges (before : Context) (table : Bool) :
    (s.marked p d).publishChanges before table = (s.publishChanges before table).marked p d :=
  State.marked_ite (s.publish .context (before.changes s.ctx table)) p d _ s

theorem State.marked_appendQueue (e : QueueEntry) : (s.marked p d).appendQueue e = (s.appendQueue e).marked p d := by
  rw [State.appendQueue, State.appendQueue, ← State.marked_ite]
  rfl

theorem State.marked_writeKey (v : Fin 12) (x : Source) (pin : Bool) :
    (s.marked p d).writeKey v x pin = ((s.writeKey v x pin).1.marked p d, (s.writeKey v x pin).2) :=
  Prod.ext (State.marked_raiseIf { s with ctx := { s.ctx with key := (s.ctx.key.write v x pin).1 } } p d _ _) rfl

theorem State.marked_autoKey (v : Fin 12) (a : Auto) : (s.marked p d).autoKey v a = (s.autoKey v a).marked p d :=
  congrArg Prod.fst (s.marked_writeKey p d v (.auto a) false)

theorem State.marked_autoScale (v : Fin 8) (a : Auto) : (s.marked p d).autoScale v a = (s.autoScale v a).marked p d := rfl

theorem State.marked_autoChord (v : Option Chord) (a : Auto) : (s.marked p d).autoChord v a = (s.autoChord v a).marked p d := rfl

theorem State.marked_takeHead (t : Trigger) : (s.marked p d).takeHead t = (s.takeHead t).marked p d := by
  rw [State.takeHead_eq, State.takeHead_eq]
  rfl

theorem State.marked_setSwitches (w : BitVec 8) : (s.marked p d).setSwitches w = (s.setSwitches w).marked p d := by
  rw [State.setSwitches_eq, State.setSwitches_eq]
  rfl

/-! ### Cue steps -/

theorem State.marked_writeStepFields (c : CueStep) : (s.marked p d).writeStepFields c = (s.writeStepFields c).marked p d := by
  rcases key : c.key with _ | k <;> rcases scale : c.scale with _ | m <;> rcases chord : c.chord with _ | v <;>
    simp only [State.writeStepFields, key, scale, chord, State.marked_autoKey, State.marked_autoScale, State.marked_autoChord]

theorem State.marked_stageStep (c : CueStep) (h : Handing) : (s.marked p d).stageStep c h = (s.stageStep c h).marked p d := by
  unfold State.stageStep
  generalize c.bindings = l
  induction l generalizing s with
  | nil => rfl
  | cons b l ih => exact ih (s.stageOn b.1 ⟨s.tables.plans.getD b.2.val planOff, b.2⟩ h)

theorem State.marked_stepWritten (c : CueStep) :
    ((s.marked p d).writeStepFields c).writeStepSwitches c = ((s.writeStepFields c).writeStepSwitches c).marked p d := by
  rw [State.marked_writeStepFields]
  exact State.marked_setSwitches _ p d _

theorem State.marked_enterStep (k : Fin 64) : (s.marked p d).enterStep k = (s.enterStep k).marked p d := by
  simp only [State.enterStep, State.marked_frame]
  rw [State.marked_stepWritten, State.marked_publishChanges, State.marked_stageStep]
  rfl

theorem State.marked_enterStepHeld (k : Fin 64) : (s.marked p d).enterStepHeld k = (s.enterStepHeld k).marked p d := by
  simp only [State.enterStepHeld, State.marked_frame]
  rw [State.marked_stepWritten, State.marked_stageStep]
  rfl

theorem State.marked_advance : (s.marked p d).advance = s.advance.marked p d := by
  rcases cursor : s.cue.cursor with _ | k
  · simp [State.advance, cursor]
  · rcases next : s.tables.nextStep k with _ | j <;> simp [State.advance, cursor, next, State.marked_enterStep] <;> rfl

theorem State.marked_advanceHeld : (s.marked p d).advanceHeld = s.advanceHeld.marked p d := by
  rcases cursor : s.cue.cursor with _ | k
  · simp [State.advanceHeld, cursor]
  · rcases next : s.tables.nextStep k with _ | j <;>
      simp only [State.advanceHeld, State.marked_frame, cursor, next, State.marked_enterStepHeld] <;> rfl

theorem State.marked_cueOnset : (s.marked p d).cueOnset = s.cueOnset.marked p d := by
  rcases entered : s.cue.entered with _ | n | n
  · simp [State.cueOnset, entered]
  · simp only [State.cueOnset, State.marked_frame, entered, State.marked_advanceHeld]
    rw [← State.marked_ite, ← State.marked_ite]
    rfl
  · simp [State.cueOnset, entered]

theorem State.marked_noteStart (k : PublicationKind) : (s.marked p d).noteStart k = (s.noteStart k).marked p d := by
  rw [State.noteStart_eq, State.noteStart_eq, State.marked_takeHead, State.marked_cueOnset]
  rfl

/-! ### Answers of the commands that may write KEY or SCALE -/

theorem State.marked_reply (src : Manual) (r : Reply) : (s.marked p d).reply src r = (s.reply src r).marked p d := by cases src <;> rfl

theorem State.marked_setkey (src : Manual) (tonic pin : Byte) :
    (s.marked p d).answerSetkey src tonic pin = (s.answerSetkey src tonic pin).marked p d := by
  rcases v : readFin 12 tonic with _ | v <;> rcases x : readPin pin with _ | x <;>
    simp only [State.answerSetkey, v, x, State.marked_writeKey, State.marked_publishChanges, State.marked_frame, Answer.marked, answer]

theorem State.marked_setscale (src : Manual) (slot pin : Byte) :
    (s.marked p d).answerSetscale src slot pin = (s.answerSetscale src slot pin).marked p d := by
  rcases v : readFin 8 slot with _ | k <;> rcases x : readPin pin with _ | pinned
  case some.some =>
    simp only [State.answerSetscale, v, x, State.marked_frame]
    rw [← Answer.marked_ite]
    exact if_congr Iff.rfl (Prod.ext (State.marked_publishChanges (s.writeScale k (.manual src) pinned).1 p d _ _) rfl) rfl
  all_goals simp only [State.answerSetscale, v, x, Answer.marked, answer]

theorem unpinAnswer_marked {α : Type} (t : State) (f : Field α × WriteResult) (bytes : α → List Byte) :
    unpinAnswer (s.marked p d) (t.marked p d) f bytes = (unpinAnswer s t f bytes).marked p d := by
  rw [unpinAnswer, unpinAnswer, ← Answer.marked_ite]
  exact if_congr Iff.rfl rfl (Prod.ext (State.marked_publishChanges _ p d _ _) rfl)

theorem State.marked_unpin (src : Manual) (field : Byte) : (s.marked p d).answerUnpin src field = (s.answerUnpin src field).marked p d := by
  have released := State.marked_raiseIf { s with ctx := { s.ctx with key := (s.ctx.key.release src).1 } } p d
    (s.ctx.key.pin.isSome && s.ctx.key.shadow.any fun x => x.source == .keytrk) .keyAdopt
  simp only [State.answerUnpin, State.marked_frame, ← Answer.marked_ite, ← unpinAnswer_marked, ← released]
  rfl

theorem State.marked_loadscale (slot : Byte) (members : BitVec 16) (rule : Byte) :
    (s.marked p d).answerLoadscale slot members rule = (s.answerLoadscale slot members rule).marked p d := by
  rcases readSlot : readFin 8 slot with _ | k <;> rcases readR : readRule rule with _ | r
  case some.some =>
    rcases readM : readMembers members with _ | m
    · simp only [State.answerLoadscale, readSlot, readR, readM, Answer.marked, answer]
    · simp only [State.answerLoadscale, readSlot, readR, readM, State.marked_frame]
      rw [← Answer.marked_ite]
      exact if_congr Iff.rfl (Prod.ext (State.marked_publishChanges { s with tables := { s.tables with scales := s.tables.scales.set k.val ⟨m, r⟩ } } p d _ _) rfl) rfl
  all_goals simp only [State.answerLoadscale, readSlot, readR, Answer.marked, answer]

theorem State.marked_cuenext : (s.marked p d).answerCuenext = s.answerCuenext.marked p d := by
  rcases cursor : s.cue.cursor with _ | k
  · simp only [State.answerCuenext, State.marked_frame, cursor, State.marked_enterStep, ← Answer.marked_ite]
    rfl
  · rcases next : s.tables.nextStep k with _ | j <;> simp only [State.answerCuenext, State.marked_frame, cursor, next, State.marked_enterStep] <;> rfl

theorem State.marked_cueprev : (s.marked p d).answerCueprev = s.answerCueprev.marked p d := by
  rcases cursor : s.cue.cursor with _ | k <;>
    simp only [State.answerCueprev, State.marked_frame, cursor, State.marked_enterStep, ← Answer.marked_ite] <;> rfl

theorem State.marked_cuegoto (step : Byte) : (s.marked p d).answerCuegoto step = (s.answerCuegoto step).marked p d := by
  rcases k : readFin 64 step with _ | k <;>
    simp only [State.answerCuegoto, State.marked_frame, k, State.marked_enterStep, ← Answer.marked_ite] <;> rfl

/-! ### The chord line -/

theorem State.marked_breakAction : (s.marked p d).breakAction = s.breakAction.marked p d := by
  rw [State.breakAction, State.breakAction, ← State.marked_ite]
  rfl

theorem State.marked_lossActions (c : LineCondition) : (s.marked p d).lossActions c = (s.lossActions c).marked p d := by
  cases c
  case lost => exact State.marked_breakAction (s.flushQueue.raise .lineLost) p d
  case broken => exact State.marked_breakAction s.flushQueue p d
  all_goals rfl

theorem State.marked_handCondition (c : LineCondition) : (s.marked p d).handCondition c = (s.handCondition c).marked p d := by
  rw [State.handCondition, State.handCondition, ← State.marked_ite, State.marked_lossActions]
  exact if_congr Iff.rfl rfl (State.marked_publishChanges { s.lossActions c with line := _, ctx := _ } p d _ _)

theorem State.marked_chordAt (v : Option Chord) (a : ApplyAt) : (s.marked p d).chordAt v a = (s.chordAt v a).marked p d := by
  cases a
  case now => exact State.marked_publishChanges (s.flushQueue.autoChord v .chordline) p d _ _
  all_goals exact State.marked_appendQueue s p d _

theorem State.marked_frameContent (f : FrameContent) : (s.marked p d).frameContent f = (s.frameContent f).marked p d := by
  cases f
  case chord v a => exact s.marked_chordAt p d v a
  case key t k =>
    simp only [State.frameContent, State.marked_autoKey, State.marked_autoScale, State.marked_publishChanges, State.marked_frame]
  all_goals rfl

theorem State.marked_validFrame (f : FrameContent) : (s.marked p d).validFrame f = (s.validFrame f).marked p d := by
  have acts (t : State) : (if switchSet (t.marked p d).deriveCondition.ctx.switches .chord then (t.marked p d).deriveCondition.frameContent f
      else (t.marked p d).deriveCondition) =
      (if switchSet t.deriveCondition.ctx.switches .chord then t.deriveCondition.frameContent f else t.deriveCondition).marked p d := by
    have derived : (t.marked p d).deriveCondition = t.deriveCondition.marked p d := t.marked_handCondition p d _
    rw [derived, State.marked_frameContent, State.marked_ite]
    rfl
  exact acts { s with line := { s.line with assembler := .hunt, silence := 0, frameSeen := true, broken := false } }

theorem State.marked_completeFrame (k : FrameKind) (data : List Byte) : (s.marked p d).completeFrame k data = (s.completeFrame k data).marked p d := by
  rcases valid : checkFrame s.tables k data with _ | f
  · simp only [State.completeFrame, State.marked_frame, valid]
    rfl
  · simp only [State.completeFrame, State.marked_frame, valid, State.marked_validFrame]

theorem State.marked_huntChar (c : LineChar) : (s.marked p d).huntChar c = (s.huntChar c).marked p d := by
  have header : (s.marked p d).takeHeader c.value = (s.takeHeader c.value).marked p d := by
    rcases kind : readFrameKind (c.value.toNat / 16) with _ | k
    · simp only [State.takeHeader, kind]
      rfl
    · simp only [State.takeHeader, kind, State.marked_completeFrame, ← State.marked_ite]
      rfl
  simp only [State.huntChar, header, ← State.marked_ite]
  rfl

theorem State.marked_frameChar (k : FrameKind) (n : Nat) (data : List Byte) (c : LineChar) :
    (s.marked p d).frameChar k n data c = (s.frameChar k n data c).marked p d := by
  have raised : ((s.marked p d).raise .frameDrop).huntChar c = ((s.raise .frameDrop).huntChar c).marked p d :=
    State.marked_huntChar (s.raise .frameDrop) p d c
  simp only [State.frameChar, State.marked_huntChar, raised, State.marked_completeFrame, ← State.marked_ite]
  rfl

theorem State.marked_takeChar : (s.marked p d).takeChar = s.takeChar.marked p d := by
  rcases fifo : s.line.fifo with _ | ⟨c, rest⟩
  · simp only [State.takeChar, State.marked_frame, fifo]
  · rcases assembler : s.line.assembler with _ | ⟨k, n, data⟩ | _
    · simp only [State.takeChar, State.marked_frame, fifo, assembler]
      exact State.marked_huntChar { s with line := { s.line with fifo := rest } } p d c
    · simp only [State.takeChar, State.marked_frame, fifo, assembler]
      exact State.marked_frameChar { s with line := { s.line with fifo := rest } } p d k n data c
    · simp only [State.takeChar, State.marked_frame, fifo, assembler]

theorem State.marked_drain (k : Nat) : State.drain k (s.marked p d) = (State.drain k s).marked p d := by
  induction k generalizing s with
  | zero => rfl
  | succ k ih => rw [State.drain, State.drain, State.marked_takeChar, ih]

theorem State.marked_receive (c : LineChar) : (s.marked p d).receive c = (s.receive c).marked p d := by
  have drained := State.marked_drain
    { s with line := { s.line with fifo := s.line.fifo ++ [{ c with gap := s.line.gapPending }], gapPending := false } } p d 2
  rw [State.receive, State.receive, ← State.marked_ite, ← drained]
  rfl

theorem State.marked_character (s1 s2 s3 : BitVec 12) : (s.marked p d).character s1 s2 s3 = (s.character s1 s2 s3).marked p d := by
  have received (t : State) (w : RxWait) (c : LineChar) : State.receive { t.marked p d with line := { t.line with wait := w } } c =
      (State.receive { t with line := { t.line with wait := w } } c).marked p d :=
    State.marked_receive { t with line := { t.line with wait := w } } p d c
  simp only [State.character, State.marked_raiseIf, ← State.marked_ite]
  exact if_congr Iff.rfl rfl (if_congr Iff.rfl rfl (received _ _ _))

theorem State.marked_matchEnd : (s.marked p d).matchEnd = s.matchEnd.marked p d := by
  rcases matching : s.matcher with _ | m
  · simp only [State.matchEnd, State.marked_frame, matching]
  · have ends : State.matchOutcome ({ s with matcher := none }.marked p d) m = (State.matchOutcome { s with matcher := none } m).marked p d := by
      rcases found : matchResult m.shapes m.notes with _ | c <;>
        simp only [State.matchOutcome, found, State.marked_chordAt, ← State.marked_ite] <;> rfl
    simp only [State.matchEnd, State.marked_frame, matching]
    exact (congrArg (fun u => State.drain 2 (State.setAssembler u .hunt)) ends).trans (State.marked_drain (State.setAssembler _ .hunt) p d 2)

end

end Sys2Proof.Machine

/-! ## Cue steps (R149 to R155) -/

namespace Sys2Proof.Machine

/-! ### The fields and switches of a step (R149 parts 1 and 2) -/

theorem State.autoKey_cue (s : State) (v : Fin 12) :
    s.autoKey v .cue = { s with ctx := { s.ctx with key := (s.ctx.key.write v (.auto .cue) false).1 } } := by
  simp [State.autoKey, State.writeKey]

theorem State.writeStepFields_eq (s : State) (c : CueStep) :
    s.writeStepFields c = { s with ctx := { s.ctx with
      key := match c.key with
        | some v => (s.ctx.key.write v (.auto .cue) false).1
        | none => s.ctx.key
      scale := match c.scale with
        | some v => (s.ctx.scale.write v (.auto .cue) false).1
        | none => s.ctx.scale
      chord := match c.chord with
        | some v => (s.ctx.chord.write v (.auto .cue) false).1
        | none => s.ctx.chord } } := by
  rcases key : c.key with _ | k <;> rcases scale : c.scale with _ | m <;> rcases chord : c.chord with _ | v <;>
    simp only [State.writeStepFields, key, scale, chord, State.autoKey_cue] <;> rfl

section
variable (s : State) (c : CueStep)

theorem State.stepWritten_stepped : s.ctx.Stepped ((s.writeStepFields c).writeStepSwitches c).ctx c := by
  rw [State.writeStepSwitches_ctx, State.writeStepFields_eq]
  exact ⟨rfl, rfl, rfl, fun i lt => cueSwitchWord_bit _ _ _ _ lt, rfl, rfl, rfl⟩

theorem State.stepWritten_queue :
    ((s.writeStepFields c).writeStepSwitches c).queue =
      if switchSet s.ctx.switches .chord = true ∧ switchSet ((s.writeStepFields c).writeStepSwitches c).ctx.switches .chord = false then []
      else s.queue := by
  rw [State.writeStepSwitches, State.setSwitches_eq, State.writeStepFields_eq]
  rfl

end

/-! ### The stagings of a step (R149 part 3) -/

/-- R149 part 3: what the stagings `l` make of voice `i`, one after the other. -/
def Voice.stageAll (v : Voice) (e : Surroundings) (i : Fin 4) (h : Handing) (l : List (Fin 4 × Fin 16)) : Voice :=
  l.foldl (fun u b => if i = b.1 then u.stage e i ⟨e.tables.plans.getD b.2.val planOff, b.2⟩ h else u) v

theorem State.stageStep_voice (s : State) (c : CueStep) (h : Handing) (i : Fin 4) :
    (s.stageStep c h).voices.get i = (s.voices.get i).stageAll s.surroundings i h c.bindings := by
  unfold State.stageStep Voice.stageAll
  generalize c.bindings = l
  induction l generalizing s with
  | nil => rfl
  | cons b l ih =>
    rw [List.foldl_cons, ih, List.foldl_cons]
    congr 1
    rw [State.stageOn, Quad.update_get]
    split
    next same => rw [same]; rfl
    next => rfl

section
variable {v : Voice} {e : Surroundings} {i : Fin 4} {h : Handing}

theorem Voice.stageAll_unnamed {l : List (Fin 4 × Fin 16)} (unnamed : i ∉ l.map Prod.fst) : v.stageAll e i h l = v := by
  unfold Voice.stageAll
  induction l with
  | nil => rfl
  | cons b l ih =>
    rw [List.map_cons, List.mem_cons, not_or] at unnamed
    rw [List.foldl_cons, if_neg unnamed.1, ih unnamed.2]

/-- R149: a voice that the bindings name once takes that staging. -/
theorem Voice.stageAll_named {l : List (Fin 4 × Fin 16)} (once : (l.map Prod.fst).Nodup) {k : Fin 16} (named : (i, k) ∈ l) :
    v.stageAll e i h l = v.stage e i ⟨e.tables.plans.getD k.val planOff, k⟩ h := by
  induction l generalizing v with
  | nil => cases named
  | cons b l ih =>
    rw [List.map_cons, List.nodup_cons] at once
    rw [Voice.stageAll, List.foldl_cons]
    obtain first | rest := List.mem_cons.mp named
    · rw [if_pos (congrArg Prod.fst first), ← first]
      exact Voice.stageAll_unnamed (by rw [← first] at once; exact once.1)
    · rw [if_neg fun same => once.1 (List.mem_map.mpr ⟨_, rest, same⟩)]
      exact ih once.2 rest

/-- R112: a staging that is not held is adopted at once on an IDLE voice, and else waits. -/
theorem Voice.stage_next (v : Voice) (e : Surroundings) (i : Fin 4) (p : Staged) :
    (v.ren.state = .idle → v.Adopts e i p (v.stage e i p .next)) ∧
      (v.ren.state ≠ .idle → v.stage e i p .next = { v with res := { v.res with staged := some p } }) := by
  refine ⟨fun idle => ?_, fun sounds => ?_⟩
  · rw [show v.stage e i p .next = Voice.adopt { v with res := { v.res with staged := some p } } e i p by simp [Voice.stage, idle]]
    exact Voice.adopt_adopts rfl rfl p
  · simp [Voice.stage, sounds]

end

/-! ### Step entry (R149) -/

/-- R137: the sound condition reads four items beside the renderer's record. -/
theorem State.soundCondition_congr {s t : State} (term : s.noteTerm = t.noteTerm) (output : s.fault.output = t.fault.output)
    (hush : s.ctx.hush = t.ctx.hush) (r : RenderRecord) : s.soundCondition r = t.soundCondition r := by
  simp only [State.soundCondition, term, output, hush]

/-- R149: step entry outside a note-start operation. -/
theorem State.enterStep_enters (s : State) (j : Fin 64) : s.EntersStep (s.enterStep j) j := by
  let c := s.tables.cueStep j
  let written := (s.writeStepFields c).writeStepSwitches c
  let published := written.publishChanges s.ctx false
  have ctx : (s.enterStep j).ctx = written.ctx := by simp [State.enterStep, written, c]
  have sounds (r : RenderRecord) : (published.stageStep c .next).soundCondition r = s.soundCondition r := by
    refine State.soundCondition_congr ?_ ?_ ?_ r
    · simp [published, written, State.noteTerm]
    · simp [published, written, State.writeStepFields_eq]
    · simp [published, written, State.writeStepFields_eq]
  refine ⟨rfl, ?_, ?_, ?_, ?_, fun i => ⟨(published.stageStep c .next).voices.get i, ?_, fun unnamed => ?_, fun once k named => ?_⟩, ?_⟩
  · simp [State.enterStep, State.setCursor, State.raise, State.writeStepFields_eq]
  · rw [ctx]
    exact s.stepWritten_stepped c
  · rw [ctx, ← s.stepWritten_queue c]
    simp [State.enterStep, c]
  · simp [State.enterStep, Tables.cueStep]
  · rw [show (s.enterStep j).voices.get i = (published.stageStep c .next).retest.voices.get i from rfl, State.retest_get, sounds]
    exact s.tests_retest _
  · rw [State.stageStep_voice]
    exact Voice.stageAll_unnamed unnamed
  · have tables : published.surroundings.tables = s.tables := by simp [published, written, State.surroundings]
    rw [State.stageStep_voice, Voice.stageAll_named (l := c.bindings) once named, tables]
    exact Voice.stage_next _ _ _ _
  · simp

/-! ### Navigation and DWELL (R150 to R152, R154, R155) -/

section
variable {s : State} {k j : Fin 64} {src : Manual}

theorem Tables.nextStep_next {t : Tables} (step : j.val = k.val + 1) (lt : j.val < t.cueLength) : t.nextStep k = some j := by
  have same : Fin.ofNat 64 (k.val + 1) = j := by rw [← step]; exact Fin.ofNat_val_eq_self j
  rw [Tables.nextStep, if_pos (by rw [← step]; exact lt), same]

theorem Tables.nextStep_wraps {t : Tables} (last : t.cueLength ≤ k.val + 1) (wrap : t.wrap = true) : t.nextStep k = some 0 := by
  rw [Tables.nextStep, if_neg (Nat.not_lt.mpr last), if_pos wrap]

theorem Tables.nextStep_ends {t : Tables} (last : t.cueLength ≤ k.val + 1) (wrap : t.wrap = false) : t.nextStep k = none := by
  rw [Tables.nextStep, if_neg (Nat.not_lt.mpr last), if_neg (by simp [wrap])]

theorem State.answerCuenext_enters (cursor : s.cue.cursor = some k) (next : s.tables.nextStep k = some j) :
    s.answerCuenext = navigated (s.enterStep j) := by
  simp only [State.answerCuenext, cursor, next]

theorem State.answerCueprev_back (cursor : s.cue.cursor = some k) (step : k.val = j.val + 1) :
    s.answerCueprev = navigated (s.enterStep j) := by
  have same : Fin.ofNat 64 (k.val - 1) = j := by rw [step]; exact Fin.ofNat_val_eq_self j
  simp only [State.answerCueprev, cursor, same]
  rw [if_pos (by omega)]

theorem State.answerCueprev_wraps (cursor : s.cue.cursor = some k) (first : k.val = 0) (wrap : s.tables.wrap = true)
    (last : s.tables.cueLength = j.val + 1) : s.answerCueprev = navigated (s.enterStep j) := by
  have same : Fin.ofNat 64 (s.tables.cueLength - 1) = j := by rw [last]; exact Fin.ofNat_val_eq_self j
  simp only [State.answerCueprev, cursor, same]
  rw [if_neg (by omega), if_pos wrap]

/-- An accepted navigation replies with the cursor (log entry 6). -/
theorem navigated_enterStep (s : State) (j : Fin 64) : navigated (s.enterStep j) = (s.enterStep j, .done, [1#8, BitVec.ofNat 8 j.val]) := rfl

theorem State.Quiet.exec_cuenext {t : State} {code : ReplyCode} {data : List Byte} (h : s.Quiet) (answers : s.answerCuenext = (t, code, data))
    (still : t.due = s.due) : exec (.cuenext src) s = .next (t.reply src ⟨0x20#8, code, data⟩) :=
  congrArg Host.Outcome.next (h.commandMeeting_answers (c := .cuenext) (body := State.answerCuenext) (by cases src <;> decide) answers still)

theorem State.Quiet.exec_cueprev {t : State} {code : ReplyCode} {data : List Byte} (h : s.Quiet) (answers : s.answerCueprev = (t, code, data))
    (still : t.due = s.due) : exec (.cueprev src) s = .next (t.reply src ⟨0x21#8, code, data⟩) :=
  congrArg Host.Outcome.next (h.commandMeeting_answers (c := .cueprev) (body := State.answerCueprev) (by cases src <;> decide) answers still)

theorem State.Quiet.exec_cuegoto {step : Byte} {t : State} {code : ReplyCode} {data : List Byte} (h : s.Quiet)
    (answers : s.answerCuegoto step = (t, code, data)) (still : t.due = s.due) : exec (.cuegoto src step) s = .next (t.reply src ⟨0x22#8, code, data⟩) :=
  congrArg Host.Outcome.next (h.commandMeeting_answers (c := .cuegoto) (body := fun u => u.answerCuegoto step) (by cases src <;> decide) answers still)

theorem State.Quiet.exec_cuestop (h : s.Quiet) : exec (.cuestop src) s = .next (s.clearCue.reply src ⟨0x23#8, .done, []⟩) :=
  congrArg Host.Outcome.next (h.command_answers (c := .cuestop) (body := State.answerCuestop) (by cases src <;> decide) rfl)

theorem State.releaseProposal_none (h : s.due.proposal = none) : s.releaseProposal = s := by
  obtain ⟨_, e⟩ | ⟨_, e⟩ := s.releaseProposal_cases
  · exact e
  · rw [e, State.takeProposal_not_due h]

/-- R154: a DWELL expiry that is due, with no proposal waiting. -/
theorem State.dwellRow_due (due : s.due.dwell = true) (no_proposal : s.due.proposal = none) : s.dwellRow = s.advance.marked none false := by
  have taken : s.takeDwell = s.advance.marked none false := by
    rw [← State.marked_advance, State.takeDwell, if_pos due]
    exact congrArg State.advance (by rw [State.marked, ← no_proposal])
  rw [State.dwellRow, if_pos due, taken, State.releaseProposal_none rfl]

theorem State.advance_enters (cursor : s.cue.cursor = some k) (next : s.tables.nextStep k = some j) : s.advance = s.enterStep j := by
  simp only [State.advance, cursor, next]

end

/-- Settles O43: each navigation by the cursor and the list's end, and the DWELL expiry by the same. -/
theorem cueNavigationEntersSteps : Obligations.CueNavigationEntersSteps := by
  refine ⟨fun s src quiet => ?_, fun s => ⟨fun off => ?_, fun due no_proposal => ?_⟩⟩
  · have enters (c : Instr) (code : Byte) (j : Fin 64) (ran : exec c s = .next ((s.enterStep j).reply src ⟨code, .done, [1#8, BitVec.ofNat 8 j.val]⟩)) :
        ∃ t, exec c s = .next (t.reply src ⟨code, .done, [1#8, BitVec.ofNat 8 j.val]⟩) ∧ s.EntersStep t j ∧ t.due = s.due ∧ t.ports = s.ports :=
      ⟨_, ran, s.enterStep_enters j, by simp, by simp⟩
    have next {j : Fin 64} (answers : s.answerCuenext = navigated (s.enterStep j)) :=
      enters _ _ j (quiet.exec_cuenext (src := src) (answers.trans (navigated_enterStep s j)) (by simp))
    have prev {j : Fin 64} (answers : s.answerCueprev = navigated (s.enterStep j)) :=
      enters _ _ j (quiet.exec_cueprev (src := src) (answers.trans (navigated_enterStep s j)) (by simp))
    refine ⟨fun cursor empty => ?_, fun cursor filled => next ?_, fun cursor => ?_, fun k cursor => ⟨fun j step lt => ?_, fun last wrap => ?_,
      fun last wrap => ?_, fun j step => ?_, fun j first wrap last => ?_, fun first wrap => ?_⟩, fun step le lt => ?_, fun step outside => ?_, ?_⟩
    · exact quiet.exec_cuenext (by simp [State.answerCuenext, cursor, empty, answer]) rfl
    · simp [State.answerCuenext, cursor, filled]
    · exact quiet.exec_cueprev (by simp [State.answerCueprev, cursor, answer]) rfl
    · exact next (State.answerCuenext_enters cursor (Tables.nextStep_next step lt))
    · exact next (State.answerCuenext_enters cursor (Tables.nextStep_wraps last wrap))
    · exact quiet.exec_cuenext (by simp [State.answerCuenext, cursor, Tables.nextStep_ends last wrap, answer]) rfl
    · exact prev (State.answerCueprev_back cursor step)
    · exact prev (State.answerCueprev_wraps cursor first wrap last)
    · exact quiet.exec_cueprev (by simp [State.answerCueprev, cursor, first, wrap, answer]) rfl
    · have reads : readFin 64 step = some (Fin.ofNat 64 step.toNat) := by
        rw [readFin, dif_pos (by omega)]
        exact congrArg some (Fin.ext (Nat.mod_eq_of_lt (by omega)).symm)
      have listed : (Fin.ofNat 64 step.toNat).val < s.tables.cueLength := by
        rw [Fin.val_ofNat, Nat.mod_eq_of_lt (by omega)]
        exact lt
      have answers : s.answerCuegoto step = navigated (s.enterStep (Fin.ofNat 64 step.toNat)) := by
        simp only [State.answerCuegoto, reads, if_pos listed]
      exact enters _ _ _ (quiet.exec_cuegoto (answers.trans (navigated_enterStep s _)) (by simp))
    · have answers : s.answerCuegoto step = answer s .range := by
        by_cases fits : step.toNat < 64
        · simp only [State.answerCuegoto, readFin, dif_pos fits]
          exact if_neg (by omega)
        · simp only [State.answerCuegoto, readFin, dif_neg fits]
      exact quiet.exec_cuegoto answers rfl
    · exact quiet.exec_cuestop
  · exact congrArg Host.Outcome.next (by simp [State.dwellRow, off])
  · have enters {k j : Fin 64} (cursor : s.cue.cursor = some k) (next : s.tables.nextStep k = some j) :
        ∃ t, exec .dwellExpiry s = .next t ∧ s.EntersStep t j ∧ t.due = { s.due with dwell := false } ∧ t.ports = s.ports := by
      refine ⟨(s.enterStep j).marked none false, congrArg Host.Outcome.next ?_, s.enterStep_enters j, ?_, by simp⟩
      · rw [State.dwellRow_due due no_proposal, State.advance_enters cursor next]
      · rw [State.marked_due, ← no_proposal]
        simp
    refine ⟨fun cursor => congrArg Host.Outcome.next ?_, fun k cursor => ⟨fun j step lt => enters cursor (Tables.nextStep_next step lt),
      fun last wrap => enters cursor (Tables.nextStep_wraps last wrap), fun last wrap => congrArg Host.Outcome.next ?_⟩⟩
    · rw [State.dwellRow_due due no_proposal, State.marked, ← no_proposal]
      simp [State.advance, cursor]
    · rw [State.dwellRow_due due no_proposal, State.marked, ← no_proposal]
      simp [State.advance, cursor, Tables.nextStep_ends last wrap, State.oneShotStop, State.raise]

end Sys2Proof.Machine

/-! ## The note-start operation (R71, R153) -/

namespace Sys2Proof.Machine

/-! ### The cue unit at a note start (R153, R155) -/

section
variable {s : State} {k : Nat} {i j : Fin 64}

theorem State.cueOnset_stands (h : (∀ k, s.cue.entered ≠ .onsets k) ∨ s.cue.running = false ∨ s.cue.cursor = none) : s.cueOnset = s := by
  rcases entered : s.cue.entered with _ | n | n
  case onsets =>
    obtain other | stopped | unset := h
    · exact absurd entered (other n)
    · simp [State.cueOnset, entered, stopped]
    · simp [State.cueOnset, entered, unset]
  all_goals simp only [State.cueOnset, entered]

variable (entered : s.cue.entered = .onsets k) (running : s.cue.running = true) (cursor : s.cue.cursor = some i)
include entered running cursor

theorem State.cueOnset_counts (below : s.cue.counter < k) : s.cueOnset = { s with cue := { s.cue with counter := s.cue.counter + 1 } } := by
  simp only [State.cueOnset, entered, running, cursor, Option.isSome_some, Bool.and_self, if_true, if_pos below]

theorem State.cueOnset_reached (reached : k ≤ s.cue.counter) : s.cueOnset = s.advanceHeld := by
  simp only [State.cueOnset, entered, running, cursor, Option.isSome_some, Bool.and_self, if_true, if_neg (Nat.not_lt.mpr reached)]

theorem State.cueOnset_enters (reached : k ≤ s.cue.counter) (next : s.tables.nextStep i = some j) :
    s.cueOnset = { s.enterStepHeld j with cue := (s.enterStepHeld j).cue.countOnset } := by
  rw [State.cueOnset_reached entered running cursor reached]
  simp only [State.advanceHeld, cursor, next]

theorem State.cueOnset_stops (reached : k ≤ s.cue.counter) (next : s.tables.nextStep i = none) : s.cueOnset = s.oneShotStop := by
  rw [State.cueOnset_reached entered running cursor reached]
  simp only [State.advanceHeld, cursor, next]

end

/-- R149, R71: the stagings of a step that a note start enters are held: the last one for a voice waits on it. -/
theorem Voice.stageAll_held (v : Voice) (e : Surroundings) (i : Fin 4) (l : List (Fin 4 × Fin 16)) :
    v.stageAll e i .held l = { v with res := { v.res with
      staged := match l.reverse.find? (fun b => b.1 = i) with
        | some b => some ⟨e.tables.plans.getD b.2.val planOff, b.2⟩
        | none => v.res.staged } } := by
  unfold Voice.stageAll
  induction l generalizing v with
  | nil => rfl
  | cons b l ih =>
    rw [List.foldl_cons, ih, List.reverse_cons, List.find?_append]
    rcases later : l.reverse.find? (fun b => b.1 = i) with _ | x
    · by_cases named : b.1 = i
      · simp [later, named, Voice.stage]
      · simp [later, named, Ne.symm named]
    · by_cases named : b.1 = i
      · simp [later, named, Voice.stage]
      · simp [later, Ne.symm named]

/-! ### The operation -/

/-- A publication that starts the note `n` (R70, R71). -/
def PublicationKind.Starts (k : PublicationKind) (n : Nat) : Prop := k = .noteOn n ∨ ∃ old, k = .noteChange old n

theorem PublicationKind.Starts.atPublication {k : PublicationKind} {n : Nat} (starts : k.Starts n) (v : Voice) (x : ContextCopy) (c : Changes)
    (e : Surroundings) (i : Fin 4) : v.atPublication ⟨k, x, c⟩ e i = v.atNoteStart e c i n := by
  obtain rfl | ⟨old, rfl⟩ := starts <;> rfl

theorem Voice.atNoteStart_unstaged (v : Voice) (e : Surroundings) (c : Changes) (i : Fin 4) (n : Nat) :
    (v.atNoteStart e c i n).res.staged = none := by
  rcases staged : v.res.staged with _ | p
  · by_cases triggered : (e.enabled i && (forcedBySwitch c e i || v.heedsOrdinary e)) = true
    · rw [Voice.atNoteStart_resolves staged triggered, (v.resolveAt_kept e n).2.2, staged]
    · rw [Voice.atNoteStart_stands staged triggered]
      cases v.res.target <;> exact staged
  · exact (Voice.atNoteStart_staged staged c).2.2.1

section
variable (s : State) {k : PublicationKind} {n : Nat}

/-- R71: what the operation publishes, after the queue head and the cue unit. -/
theorem State.noteStart_delivers (k : PublicationKind) :
    s.noteStart k = State.deliver (s.takeHead .onset).cueOnset.noteTaken
      ⟨k, (s.noteStart k).ctx.published, s.ctx.noteChanges (s.takeHead .onset).ctx (s.noteStart k).ctx⟩ := rfl

theorem State.noteStart_ctx (k : PublicationKind) : (s.noteStart k).ctx = (s.takeHead .onset).cueOnset.ctx := rfl
theorem State.noteStart_cue (k : PublicationKind) : (s.noteStart k).cue = (s.takeHead .onset).cueOnset.cue := rfl
theorem State.noteStart_fault (k : PublicationKind) : (s.noteStart k).fault = (s.takeHead .onset).cueOnset.fault := rfl

/-- R117, R137: a voice at the note's publication, from what the cue unit left on it. -/
theorem State.noteStart_takes (k : PublicationKind) (i : Fin 4) {v : Voice} (left : (s.takeHead .onset).cueOnset.voices.get i = v) :
    (s.noteStart k).VoiceTakes ⟨k, (s.noteStart k).ctx.published, s.ctx.noteChanges (s.takeHead .onset).ctx (s.noteStart k).ctx⟩ i v
      ((s.noteStart k).voices.get i) := by
  rw [← left]
  exact State.deliver_takes (s.takeHead .onset).cueOnset.noteTaken
    ⟨k, (s.noteStart k).ctx.published, s.ctx.noteChanges (s.takeHead .onset).ctx (s.noteStart k).ctx⟩ i

variable (starts : k.Starts n)
include starts

theorem State.noteStart_record (i : Fin 4) :
    ((s.noteStart k).voices.get i).res = (((s.takeHead .onset).cueOnset.voices.get i).atNoteStart
      ⟨s.tables, (s.noteStart k).ctx.published, s.decider.state.note, s.decider.dev⟩
      (s.ctx.noteChanges (s.takeHead .onset).ctx (s.noteStart k).ctx) i n).res := by
  rw [s.noteStart_delivers, State.deliver_voice]
  simp only [Voice.afterPublication, starts.atPublication]
  simp
  rfl

theorem State.noteStart_unstaged (i : Fin 4) : ((s.noteStart k).voices.get i).res.staged = none := by
  rw [s.noteStart_record starts, Voice.atNoteStart_unstaged]

/-- R114: a plan that the cue unit left staged is adopted. -/
theorem State.noteStart_adopts {i : Fin 4} {p : Staged} (staged : ((s.takeHead .onset).cueOnset.voices.get i).res.staged = some p) :
    ((s.noteStart k).voices.get i).res.plan = p.plan ∧ ((s.noteStart k).voices.get i).res.binding = p.origin := by
  rw [s.noteStart_record starts]
  exact ⟨(Voice.atNoteStart_staged staged _).1, (Voice.atNoteStart_staged staged _).2.1⟩

end

/-! ### SETTLE_COMPLETE -/

section
variable {s : State} {k : PublicationKind} {n : Nat}

theorem State.settleRow_due (start : s.due.start = some k) (no_proposal : s.due.proposal = none) : s.settleRow = s.noteStart k := by
  have due : (s.noteStart k).due.proposal = none := by simp [State.noteStart, no_proposal]
  rw [State.settleRow, start, Option.isSome_some, if_pos rfl, s.takeNoteStart_due start, State.releaseProposal_none due]

theorem Due.start_eq_none {d : Due} (on : ∀ n, d.note ≠ some (.noteOn n)) (change : ∀ old n, d.note ≠ some (.noteChange old n)) : d.start = none := by
  rcases note : d.note with _ | _ | _ | _
  case some.noteOn => exact absurd note (on _)
  case some.noteChange => exact absurd note (change _ _)
  all_goals simp only [Due.start, note]

/-- The next step of the list, by the two ways a list goes on. -/
theorem Tables.nextStep_goes {t : Tables} {i j : Fin 64}
    (goes : (j.val = i.val + 1 ∧ j.val < t.cueLength) ∨ (t.cueLength ≤ i.val + 1 ∧ t.wrap = true ∧ j = 0)) : t.nextStep i = some j := by
  obtain ⟨step, lt⟩ | ⟨last, wrap, rfl⟩ := goes
  · exact Tables.nextStep_next step lt
  · exact Tables.nextStep_wraps last wrap

end

/-- R149, R97: a step entered within a note start empties the queue exactly when it clears CHORD. -/
theorem State.enterStepHeld_queue (s : State) (j : Fin 64) :
    (s.enterStepHeld j).queue =
      if switchSet s.ctx.switches .chord = true ∧ switchSet (s.enterStepHeld j).ctx.switches .chord = false then [] else s.queue := by
  have ctx : (s.enterStepHeld j).ctx = ((s.writeStepFields (s.tables.cueStep j)).writeStepSwitches (s.tables.cueStep j)).ctx := by
    simp [State.enterStepHeld]
  rw [ctx, ← s.stepWritten_queue]
  simp [State.enterStepHeld]

theorem State.enterStepHeld_stepped (s : State) (j : Fin 64) : s.ctx.Stepped (s.enterStepHeld j).ctx (s.tables.cueStep j) := by
  have ctx : (s.enterStepHeld j).ctx = ((s.writeStepFields (s.tables.cueStep j)).writeStepSwitches (s.tables.cueStep j)).ctx := by
    simp [State.enterStepHeld]
  rw [ctx]
  exact s.stepWritten_stepped _

theorem State.enterStepHeld_fault (s : State) (j : Fin 64) : (s.enterStepHeld j).fault = (s.raise .cueAdv).fault := by
  simp [State.enterStepHeld, State.setCursor, State.raise, State.writeStepFields_eq]

/-- R149, R71: what the stagings of the entered step make of a voice. -/
theorem State.enterStepHeld_staged (s : State) (i : Fin 4) (j : Fin 64) :
    ∃ e : Surroundings, e.tables = s.tables ∧
      (s.enterStepHeld j).voices.get i = (s.voices.get i).stageAll e i .held (s.tables.cueStep j).bindings := by
  have held := State.stageStep_voice ((s.writeStepFields (s.tables.cueStep j)).writeStepSwitches (s.tables.cueStep j)) (s.tables.cueStep j) .held i
  have voices : ((s.writeStepFields (s.tables.cueStep j)).writeStepSwitches (s.tables.cueStep j)).voices = s.voices := by simp
  rw [voices] at held
  exact ⟨State.surroundings ((s.writeStepFields (s.tables.cueStep j)).writeStepSwitches (s.tables.cueStep j)), by simp [State.surroundings], held⟩

/-- R149, R71: the entered step's last staging for a voice is held on it. -/
theorem State.enterStepHeld_voice (s : State) (i : Fin 4) (j : Fin 64) :
    (s.enterStepHeld j).voices.get i = { s.voices.get i with res := { (s.voices.get i).res with
      staged := match (s.tables.cueStep j).bindings.reverse.find? (fun b => b.1 = i) with
        | some b => some ⟨s.tables.plans.getD b.2.val planOff, b.2⟩
        | none => (s.voices.get i).res.staged } } := by
  obtain ⟨e, tables, held⟩ := s.enterStepHeld_staged i j
  rw [held, Voice.stageAll_held, tables]

theorem State.enterStepHeld_named {s : State} {b : Fin 4 × Fin 16} {j : Fin 64} (once : ((s.tables.cueStep j).bindings.map Prod.fst).Nodup)
    (named : b ∈ (s.tables.cueStep j).bindings) :
    ((s.enterStepHeld j).voices.get b.1).res.staged = some ⟨s.tables.plans.getD b.2.val planOff, b.2⟩ := by
  obtain ⟨e, tables, held⟩ := s.enterStepHeld_staged b.1 j
  rw [held, Voice.stageAll_named once named, tables]
  rfl

theorem State.enterStepHeld_unnamed {s : State} {i : Fin 4} {j : Fin 64} (unnamed : i ∉ (s.tables.cueStep j).bindings.map Prod.fst) :
    (s.enterStepHeld j).voices.get i = s.voices.get i := by
  obtain ⟨e, _, held⟩ := s.enterStepHeld_staged i j
  rw [held, Voice.stageAll_unnamed unnamed]

/-- R153: a step entered by a note start counts it when its condition is ONSETS. -/
theorem CueUnit.countOnset_entered (j : Fin 64) (a : Advance) :
    (⟨some j, 0, true, a⟩ : CueUnit).countOnset = ⟨some j, match a with | .onsets _ => 1 | _ => 0, true, a⟩ := by
  cases a <;> rfl

/-- R97: at a note start the cue unit empties the queue exactly when it clears CHORD. -/
theorem State.cueOnset_queue (s : State) :
    s.cueOnset.queue = if switchSet s.ctx.switches .chord = true ∧ switchSet s.cueOnset.ctx.switches .chord = false then [] else s.queue := by
  have kept {t : State} (queue : t.queue = s.queue) (switches : t.ctx.switches = s.ctx.switches) :
      t.queue = if switchSet s.ctx.switches .chord = true ∧ switchSet t.ctx.switches .chord = false then [] else s.queue := by
    rw [switches, queue, if_neg (by simp)]
  by_cases idle : (∀ k, s.cue.entered ≠ .onsets k) ∨ s.cue.running = false ∨ s.cue.cursor = none
  · rw [State.cueOnset_stands idle]
    exact kept rfl rfl
  · push Not at idle
    obtain ⟨⟨k, entered⟩, running, cursor⟩ := idle
    obtain ⟨i, cursor⟩ := Option.ne_none_iff_exists'.mp cursor
    replace running : s.cue.running = true := by simpa using running
    obtain below | reached := Nat.lt_or_ge s.cue.counter k
    · rw [State.cueOnset_counts entered running cursor below]
      exact kept rfl rfl
    · rcases next : s.tables.nextStep i with _ | j
      · rw [State.cueOnset_stops entered running cursor reached next]
        exact kept rfl rfl
      · rw [State.cueOnset_enters entered running cursor reached next]
        exact s.enterStepHeld_queue j

/-- Settles O30: the note start by what the cue unit does with it. -/
theorem noteStartIsOneOperation : Obligations.NoteStartIsOneOperation := by
  refine ⟨fun s on change => ?_, ?_⟩
  · exact congrArg Host.Outcome.next (by simp [State.settleRow, Due.start_eq_none on change])
  intro s n due no_proposal head chord taken adopted resolved asStaged
  obtain ⟨x, starts, start, kind⟩ : ∃ x : PublicationKind, x.Starts n ∧ s.due.start = some x ∧ (match s.due.note with
      | some (.noteChange old m) => PublicationKind.noteChange old m
      | _ => .noteOn n) = x := by
    obtain due | ⟨old, due⟩ := due
    · exact ⟨.noteOn n, .inl rfl, by simp [Due.start, due], by rw [due]⟩
    · exact ⟨.noteChange old n, .inr ⟨old, rfl⟩, by simp [Due.start, due], by rw [due]⟩
  have head_eq : head = queueHead s.queue .onset := (queueHead_onset _).symm
  have chord_eq : chord = s.ctx.chord.headed (queueHead s.queue .onset) := by
    rw [← head_eq]
    exact (Field.headed_eq _ _).symm
  have taken_eq : (s.takeHead .onset).ctx = taken := by rw [s.takeHead_eq, ← chord_eq]
  have queue_eq : (s.takeHead .onset).queue = if head.isSome then s.queue.tail else s.queue := by rw [s.takeHead_eq, ← head_eq]
  have tables : (s.takeHead .onset).tables = s.tables := by simp
  have cue : (s.takeHead .onset).cue = s.cue := by simp
  have switches : (s.takeHead .onset).ctx.switches = s.ctx.switches := by rw [taken_eq]
  have takes (bindings : List (Fin 4 × Fin 16)) (left : ∀ i, (s.takeHead .onset).cueOnset.voices.get i =
      { s.voices.get i with res := { (s.voices.get i).res with staged := match bindings.reverse.find? (fun b => b.1 = i) with
        | some b => some ⟨s.tables.plans.getD b.2.val planOff, b.2⟩
        | none => (s.voices.get i).res.staged } }) : resolved (s.noteStart x) bindings := by
    intro i
    have takes := s.noteStart_takes x i (left i)
    rw [taken_eq] at takes
    subst kind
    exact takes
  have adopts {i : Fin 4} (left : (s.takeHead .onset).cueOnset.voices.get i = s.voices.get i) : asStaged (s.noteStart x) i :=
    fun p staged => s.noteStart_adopts starts (by rw [left]; exact staged)
  have unstaged (left : (s.takeHead .onset).cueOnset.voices = s.voices) :
      resolved (s.noteStart x) [] ∧ ∀ i, asStaged (s.noteStart x) i :=
    ⟨takes [] fun i => by rw [left]; rfl, fun i => adopts (by rw [left])⟩
  refine ⟨s.noteStart x, congrArg Host.Outcome.next (State.settleRow_due start no_proposal), by simp [State.noteStart], rfl,
    s.noteStart_unstaged starts, ?_, fun idle => ?_, fun k i entered running cursor => ⟨fun below => ?_, fun reached =>
      ⟨fun j goes => ?_, fun last wrap => ?_⟩⟩, ?_⟩
  · rw [← queue_eq, ← switches]
    exact (s.takeHead .onset).cueOnset_queue
  · have stands := State.cueOnset_stands (s := s.takeHead .onset) (by rw [cue]; exact idle)
    have ctx : (s.noteStart x).ctx = taken := by rw [s.noteStart_ctx, stands, taken_eq]
    refine ⟨by rw [s.noteStart_cue, stands, cue], ctx, ?_, unstaged (by rw [stands]; simp)⟩
    simp [State.ext_iff, State.noteStart, stands]
  · have counts := State.cueOnset_counts (s := s.takeHead .onset) (by rw [cue]; exact entered) (by rw [cue]; exact running)
      (by rw [cue]; exact cursor) (by rw [cue]; exact below)
    exact ⟨by rw [s.noteStart_cue, counts, cue], by rw [s.noteStart_ctx, counts, ← taken_eq], by rw [s.noteStart_fault, counts]; simp,
      unstaged (by rw [counts]; simp)⟩
  · have enters := State.cueOnset_enters (s := s.takeHead .onset) (by rw [cue]; exact entered) (by rw [cue]; exact running)
      (by rw [cue]; exact cursor) (by rw [cue]; exact reached) (by rw [tables]; exact Tables.nextStep_goes goes)
    have left (i : Fin 4) := congrArg (fun u : State => u.voices.get i) enters
    simp only [State.enterStepHeld_voice, tables, (s.takeHead_frame .onset).2.2.2.2.2.2.2.2.2.1] at left
    refine ⟨?_, ?_, ?_, takes _ left, fun once b named => ?_, fun i unnamed => adopts ?_⟩
    · rw [s.noteStart_cue, enters, ← tables]
      exact CueUnit.countOnset_entered j _
    · rw [s.noteStart_fault, enters]
      exact ((s.takeHead .onset).enterStepHeld_fault j).trans (by simp [State.raise])
    · rw [s.noteStart_ctx, enters, ← taken_eq]
      have stepped := (s.takeHead .onset).enterStepHeld_stepped j
      rw [tables] at stepped
      exact stepped
    · refine s.noteStart_adopts starts ?_
      rw [enters, ← tables]
      exact State.enterStepHeld_named (by rw [tables]; exact once) (by rw [tables]; exact named)
    · rw [enters]
      exact (State.enterStepHeld_unnamed (by rw [tables]; exact unnamed)).trans (by simp)
  · have stops := State.cueOnset_stops (s := s.takeHead .onset) (by rw [cue]; exact entered) (by rw [cue]; exact running)
      (by rw [cue]; exact cursor) (by rw [cue]; exact reached) (by rw [tables]; exact Tables.nextStep_ends last wrap)
    refine ⟨by rw [s.noteStart_cue, stops, ← cue]; rfl, ?_, by rw [s.noteStart_ctx, stops, ← taken_eq]; rfl, unstaged (by rw [stops]; simp)⟩
    rw [s.noteStart_fault, stops]
    simp [State.oneShotStop, State.raise]
  · simp [State.noteStart]

end Sys2Proof.Machine

/-! ## Decay events (chapter 6) -/

namespace Sys2Proof.Machine

/-! ### The evaluation (R102, R103) -/

theorem accTotal_eq (acc : List Nat) : accTotal acc = acc.sum := List.sum_eq_foldl.symm

/-- R102: the score of a tonic. -/
theorem keyScore_eq (acc : List Nat) (members : PitchSet) (k : Nat) :
    keyScore acc members k =
      2 * (((List.range 12).filter fun x => members.getLsbD x).map fun x => acc.getD ((k + x) % 12) 0).sum - (acc.sum : Int) := by
  rw [keyScore, accTotal_eq, ← List.sum_eq_foldl]

/-- A running maximum stays at a bound that it has reached. -/
theorem foldl_max_eq {f : Fin 12 → Int} {m : Int} (bound : ∀ k, f k ≤ m) {l : List (Fin 12)} {a : Int} (le : a ≤ m) (reached : a = m ∨ ∃ k ∈ l, f k = m) :
    l.foldl (fun x k => max x (f k)) a = m := by
  induction l generalizing a with
  | nil => simpa using reached
  | cons k l ih =>
    refine ih (max_le le (bound k)) ?_
    obtain rfl | ⟨j, mem, attains⟩ := reached
    · exact .inl (max_eq_left (bound k))
    · obtain rfl | rest := List.mem_cons.mp mem
      · exact .inl ((max_eq_right (by rw [attains]; exact le)).trans attains)
      · exact .inr ⟨j, rest, attains⟩

section
variable {acc : List Nat} {members : PitchSet} {t best : Fin 12}

theorem bestScore_eq (highest : ∀ k : Fin 12, keyScore acc members k.val ≤ keyScore acc members best.val) :
    bestScore acc members = keyScore acc members best.val :=
  foldl_max_eq highest (highest 0) (.inr ⟨best, List.mem_finRange best, rfl⟩)

/-- R102: the best tonic is the current one if it has the highest score, else the lowest that has. -/
theorem bestTonic_eq (highest : ∀ k : Fin 12, keyScore acc members k.val ≤ keyScore acc members best.val)
    (current : keyScore acc members t.val = keyScore acc members best.val → best = t)
    (lowest : keyScore acc members t.val ≠ keyScore acc members best.val → ∀ k, k < best → keyScore acc members k.val < keyScore acc members best.val) :
    bestTonic acc members t = best := by
  simp only [bestTonic, bestScore_eq highest]
  split
  next same => exact (current same).symm
  next below =>
    have found : tonics.find? (fun k => decide (keyScore acc members k.val = keyScore acc members best.val)) = some best := by
      rw [List.find?_eq_some_iff_getElem]
      refine ⟨by simp, best.val, by simp [tonics], by simp [tonics], fun j lt => ?_⟩
      simpa [tonics] using (lowest below ⟨j, by omega⟩ lt).ne
    rw [found]
    rfl

end

/-! ### The proposal (R103, R107) -/

theorem Due.start_isSome (d : Due) : d.start.isSome = true ↔ (∃ n, d.note = some (.noteOn n)) ∨ ∃ old n, d.note = some (.noteChange old n) := by
  rcases note : d.note with _ | _ | _ | _ <;> simp [Due.start, note]

theorem Due.mayEnterStep_iff (d : Due) : d.mayEnterStep = true ↔ d.StepMayFollow := by
  rw [Due.mayEnterStep, Bool.or_eq_true, d.start_isSome, Due.StepMayFollow, or_assoc]

/-- R54, R103: a write of the key tracker's to KEY. -/
theorem State.autoKey_keytrk (s : State) (k : Fin 12) :
    s.autoKey k .keytrk = { s with
      ctx := { s.ctx with key := (s.ctx.key.write k (.auto .keytrk) false).1 }
      fault := if s.ctx.key.pin = none then (s.raise .keyAdopt).fault else s.fault } := by
  cases pin : s.ctx.key.pin <;> simp [State.autoKey, State.writeKey, Field.write, pin, State.raise]

/-- R103, R107: what a state with no proposal becomes when `k` is proposed and reaches the context unit. -/
def State.proposed (s : State) (k : Fin 12) : State :=
  State.publishChanges { s with
    ctx := { s.ctx with key := (s.ctx.key.write k (.auto .keytrk) false).1 }
    fault := if s.ctx.key.pin = none then (s.raise .keyAdopt).fault else s.fault } s.ctx false

theorem State.takeProposal_waiting (s : State) (k : Fin 12) : (s.marked (some k) s.due.dwell).takeProposal = (s.marked none s.due.dwell).proposed k :=
  congrArg (fun u : State => u.publishChanges s.ctx false) (State.autoKey_keytrk (s.marked none s.due.dwell) k)

theorem State.releaseProposal_waits {s : State} (follows : s.due.StepMayFollow) : s.releaseProposal = s := by
  rw [State.releaseProposal, if_pos (s.due.mayEnterStep_iff.mpr follows)]

theorem State.releaseProposal_takes {s : State} (alone : ¬s.due.StepMayFollow) : s.releaseProposal = s.takeProposal := by
  rw [State.releaseProposal, if_neg (mt s.due.mayEnterStep_iff.mp alone)]

/-! ### DECAY_EVENT -/

section
variable {s : State} {best : Fin 12}

/-- R101 to R105: the state that a decay event's evaluation leaves, with `e` evaluated. -/
def State.judgedBy (s : State) (e : Evaluation) : State :=
  { s with
    due := { s.due with decay := false, proposal := none }
    key := { s.key with acc := s.key.acc.map (· / 2), counter := 0, evaluation := some e } }

theorem State.evaluation_eq (s : State) :
    s.evaluation = (s.judgedBy s.evaluateKey).marked (if s.evaluateKey.outcome = .proposed then some s.evaluateKey.best else none) s.due.dwell := rfl

theorem State.decayRow_due (due : s.due.decay = true) : s.decayRow = s.evaluation.releaseProposal := by
  rw [State.decayRow, if_pos due]

theorem State.decayRow_waits (due : s.due.decay = true) (follows : s.due.StepMayFollow) : s.decayRow = s.evaluation := by
  rw [State.decayRow_due due, State.releaseProposal_waits (s := s.evaluation) follows]

theorem State.evaluation_takes (s : State) :
    s.evaluation.takeProposal =
      if s.evaluateKey.outcome = .proposed then (s.judgedBy s.evaluateKey).proposed s.evaluateKey.best else s.judgedBy s.evaluateKey := by
  rw [State.evaluation_eq]
  split
  · exact State.takeProposal_waiting (s.judgedBy s.evaluateKey) _
  · exact State.takeProposal_not_due rfl

theorem State.decayRow_takes (due : s.due.decay = true) (alone : ¬s.due.StepMayFollow) : s.decayRow =
      if s.evaluateKey.outcome = .proposed then (s.judgedBy s.evaluateKey).proposed s.evaluateKey.best else s.judgedBy s.evaluateKey := by
  rw [State.decayRow_due due, State.releaseProposal_takes (s := s.evaluation) alone, State.evaluation_takes]

/-- R102, R103, R105: the evaluation record, for the best tonic. -/
theorem State.evaluateKey_eq {members : PitchSet} (slot : members = (s.tables.scales.getD s.ctx.scale.value.val ⟨0#12, .parallel⟩).members)
    (highest : ∀ k : Fin 12, keyScore s.key.acc members k.val ≤ keyScore s.key.acc members best.val)
    (current : keyScore s.key.acc members s.ctx.key.value.val = keyScore s.key.acc members best.val → best = s.ctx.key.value)
    (lowest : keyScore s.key.acc members s.ctx.key.value.val ≠ keyScore s.key.acc members best.val →
      ∀ k, k < best → keyScore s.key.acc members k.val < keyScore s.key.acc members best.val) :
    s.evaluateKey = ⟨s.ctx.key.value, s.ctx.scale.value, best, keyScore s.key.acc members best.val, keyScore s.key.acc members s.ctx.key.value.val,
      s.key.acc.sum, s.key.acc.sum * s.key.margin / 64,
      if best = s.ctx.key.value then .same
      else if s.key.acc.sum < s.key.minTotal then .lowTotal
      else if keyScore s.key.acc members best.val - keyScore s.key.acc members s.ctx.key.value.val < (s.key.acc.sum * s.key.margin / 64 : Nat) then .margin
      else if s.ctx.switches.getLsbD 6 = false then .switchOff
      else .proposed⟩ := by
  have switch : (!switchSet s.ctx.switches .keytrk) = true ↔ s.ctx.switches.getLsbD 6 = false := by rw [Bool.not_eq_true']; rfl
  simp only [State.evaluateKey, ← slot, bestTonic_eq highest current lowest, accTotal_eq, keyOutcome, if_congr switch rfl rfl]

end

/-! ### A proposal that waits for the steps of its hop (R107) -/

section
variable {s : State} {k : Fin 12}

theorem State.release_waiting {u : State} (no_proposal : u.due.proposal = none) (k : Fin 12) :
    (u.due.StepMayFollow → (u.marked (some k) u.due.dwell).releaseProposal = { u with due := { u.due with proposal := some k } }) ∧
      (¬u.due.StepMayFollow → (u.marked (some k) u.due.dwell).releaseProposal = u.proposed k) := by
  refine ⟨fun follows => State.releaseProposal_waits (s := u.marked (some k) u.due.dwell) follows, fun alone => ?_⟩
  rw [State.releaseProposal_takes (s := u.marked (some k) u.due.dwell) alone, State.takeProposal_waiting, ← no_proposal, State.marked_self]

/-- R107: the two rows that may enter a cue step, with a proposal waiting and without one. -/
theorem State.waiting_rows {c : Instr} (waits : s.due.proposal = some k)
    (row : (c = .settleComplete ∧ s.due.start.isSome = true) ∨ (c = .dwellExpiry ∧ s.due.dwell = true)) :
    ∃ u : State, u.due.proposal = none ∧ exec c { s with due := { s.due with proposal := none } } = .next u ∧
      exec c s = .next (u.marked (some k) u.due.dwell).releaseProposal := by
  have self : (s.marked none s.due.dwell).marked (some k) s.due.dwell = s := by rw [State.marked_marked, ← waits, State.marked_self]
  obtain ⟨rfl, start⟩ | ⟨rfl, due⟩ := row
  · obtain ⟨x, start⟩ := Option.isSome_iff_exists.mp start
    have started := State.settleRow_due (s := s.marked none s.due.dwell) start rfl
    refine ⟨(s.marked none s.due.dwell).noteStart x, by rw [State.marked_noteStart]; rfl, congrArg Host.Outcome.next started, congrArg Host.Outcome.next ?_⟩
    rw [State.settleRow, start, Option.isSome_some, if_pos rfl, State.takeNoteStart_due start]
    conv_lhs => rw [← self, State.marked_noteStart]
    simp [State.noteStart, State.marked_due]
  · have advanced := State.dwellRow_due (s := s.marked none s.due.dwell) due rfl
    refine ⟨(s.marked none s.due.dwell).advance.marked none false, rfl, congrArg Host.Outcome.next advanced, congrArg Host.Outcome.next ?_⟩
    have taken : s.takeDwell = (s.marked (some k) false).advance := by rw [State.takeDwell, if_pos due, ← waits]; rfl
    rw [State.dwellRow, if_pos due, taken, State.marked_advance, State.marked_advance]
    rfl

end

/-! ### Events that meet a decay event (R107) -/

/-- An event's effect that no mark of a proposal or of a DWELL expiry bears on. -/
def MarksStand (f : State → State) : Prop := ∀ s p d, f (s.marked p d) = (f s).marked p d

theorem MarksStand.decoded {body : State → Answer} (h : ∀ s p d, body (State.marked s p d) = (body s).marked p d) (src : Manual) (c : Cmd) :
    MarksStand fun t => t.decoded src c body := by
  intro s p d
  by_cases permitted : src ∈ c.sources
  · simp only [State.decoded_permitted _ permitted, h]
    exact State.marked_reply _ p d src _
  · simp only [State.decoded_notPermitted _ permitted]
    exact s.marked_reply p d src _

/-- R107: the commands and events that may write KEY or SCALE. -/
def Instr.MayWrite (c : Instr) : Prop :=
  (∃ src a b, c = .setkey src a b ∨ c = .setscale src a b) ∨ (∃ src field, c = .unpin src field) ∨ (∃ src k m r, c = .loadscale src k m r) ∨
    (∃ src step, c = .cuenext src ∨ c = .cueprev src ∨ c = .cuegoto src step) ∨ (∃ x y z, c = .character x y z) ∨ c = .matchEnd

theorem exec_meeting {c : Instr} (h : Instr.MayWrite c) : ∃ f, MarksStand f ∧ ∀ s, exec c s = .next (s.meeting f) := by
  obtain ⟨src, a, b, rfl | rfl⟩ | ⟨src, field, rfl⟩ | ⟨src, k, m, r, rfl⟩ | ⟨src, step, rfl | rfl | rfl⟩ | ⟨x, y, z, rfl⟩ | rfl := h
  · exact ⟨_, .decoded (fun s p d => s.marked_setkey p d src a b) src .setkey, fun s => rfl⟩
  · exact ⟨_, .decoded (fun s p d => s.marked_setscale p d src a b) src .setscale, fun s => rfl⟩
  · exact ⟨_, .decoded (fun s p d => s.marked_unpin p d src field) src .unpin, fun s => rfl⟩
  · exact ⟨_, .decoded (fun s p d => s.marked_loadscale p d k m r) src .loadscale, fun s => rfl⟩
  · exact ⟨_, .decoded (fun s p d => s.marked_cuenext p d) src .cuenext, fun s => rfl⟩
  · exact ⟨_, .decoded (fun s p d => s.marked_cueprev p d) src .cueprev, fun s => rfl⟩
  · exact ⟨_, .decoded (fun s p d => s.marked_cuegoto p d step) src .cuegoto, fun s => rfl⟩
  · exact ⟨fun t => t.character x y z, fun s p d => s.marked_character p d x y z, fun s => rfl⟩
  · exact ⟨State.matchEnd, fun s p d => s.marked_matchEnd p d, fun s => rfl⟩

section
variable {s : State} (due : s.due = { Due.nothing with decay := true })
include due

theorem State.completeFirst_decay : s.completeFirst = s := by
  rw [State.completeFirst, takeLearn_not_due (by rw [due]; rfl), takeHowl_not_due (by rw [due]; rfl), takeRecovery_not_due (by rw [due]; rfl),
    takeNoteStart_not_due (by rw [due]; rfl), takeNoteOff_not_due (by rw [due]; rfl)]

theorem State.completeLast_decay {t : State} (same : t.due.dwell = s.due.dwell ∧ t.due.silence = s.due.silence ∧
    t.due.fadeStep = s.due.fadeStep ∧ t.due.render = s.due.render) : t.completeLast = t := by
  obtain ⟨dwell, silence, fadeStep, render⟩ := same
  rw [State.completeLast, takeDwell_not_due (by rw [dwell, due]; rfl), takeSilence_not_due (by rw [silence, due]; rfl),
    takeFadeStep_not_due (by rw [fadeStep, due]; rfl), takeRender_not_due (by rw [render, due]; rfl)]

/-- R107: an event that may write KEY or SCALE finds the evaluation made. -/
theorem State.evaluated_decay : s.evaluated = s.evaluation := by
  rw [State.evaluated, State.completeFirst_decay due, State.takeEvaluation, if_pos (by rw [due]), State.completeLast_decay due]
  exact ⟨rfl, rfl, rfl, rfl⟩

/-- R107: KEYTRACK finds the event still due. -/
theorem State.completeButDecay_decay : s.completeButDecay = s := by
  rw [State.completeButDecay, State.completeFirst_decay due, State.completeLast_decay due ⟨rfl, rfl, rfl, rfl⟩,
    State.takeProposal_not_due (by rw [due]; rfl)]

theorem State.judgedBy_quiet (e : Evaluation) : (s.judgedBy e).Quiet := by
  show ({ s.due with decay := false, proposal := none } : Due) = Due.nothing
  rw [due]
  rfl

end

/-- R107: with nothing due the marks' commutation leaves no proposal after the event. -/
theorem State.Quiet.meeting_marksStand {s : State} (h : s.Quiet) {f : State → State} (stands : MarksStand f) :
    s.meeting f = f s ∧ (f s).due.proposal = none ∧ (f s).due.dwell = false := by
  have self : s.marked none false = s := by
    rw [State.Quiet] at h
    rw [State.marked, h]
    exact congrArg (fun d => { s with due := d }) h.symm
  have left : f s = (f s).marked none false := by rw [← stands, self]
  refine ⟨?_, by rw [left]; rfl, by rw [left]; rfl⟩
  rw [State.meeting, h.evaluated, State.takeProposal_not_due (by rw [left]; rfl)]

/-- R107: an event that may write KEY or SCALE acts on the judged state, and the proposal is taken after it. -/
theorem State.meeting_decay {s : State} (due : s.due = { Due.nothing with decay := true }) {f : State → State} (stands : MarksStand f) :
    s.meeting f = if s.evaluateKey.outcome = .proposed then (f (s.judgedBy s.evaluateKey)).proposed s.evaluateKey.best
      else f (s.judgedBy s.evaluateKey) := by
  obtain ⟨_, no_proposal, no_dwell⟩ := (State.judgedBy_quiet due s.evaluateKey).meeting_marksStand stands
  rw [State.meeting, State.evaluated_decay due, State.evaluation_eq, stands, show s.due.dwell = false by rw [due]; rfl, ← no_dwell]
  split
  · rw [State.takeProposal_waiting, ← no_proposal, State.marked_self]
  · rw [← no_proposal, State.marked_self, State.takeProposal_not_due no_proposal]

/-- R107: after a decay event alone no proposal waits, and the key tracker is as the evaluation left it. -/
theorem State.decayRow_key {s : State} (due : s.due = { Due.nothing with decay := true }) :
    s.decayRow.key = (s.judgedBy s.evaluateKey).key := by
  have alone : ¬s.due.StepMayFollow := by rw [due]; simp [Due.StepMayFollow, Due.nothing]
  rw [State.decayRow_takes (by rw [due]) alone]
  split
  · simp [State.proposed]
  · rfl

/-- R106, R107: KEYTRACK judges a decay event that is due by the new D. -/
theorem State.answerKeytrack_decay {s : State} (due : s.due = { Due.nothing with decay := true }) (b : KeytrackBytes) (clear : Bool)
    (ok : 16 ≤ b.decay.toNat ∧ b.decay.toNat ≤ 4096 ∧ b.decay.toNat % 16 = 0 ∧ b.margin.toNat ≤ 63) :
    s.answerKeytrack b clear =
      ({ s with
          key :=
            let set := { s.key with decay := b.decay.toNat, margin := b.margin.toNat, minTotal := b.minTotal.toNat }
            if clear = true then { set with acc := List.replicate 12 0, counter := 0 } else set
          due := { Due.nothing with decay := !clear && decide (b.decay.toNat ≤ s.key.counter) } },
        .done, bytes16 b.decay ++ [b.margin] ++ bytes16 b.minTotal) := by
  have positive : ¬b.decay.toNat ≤ 0 := by omega
  simp only [State.answerKeytrack, readKeytrack, if_pos ok, natBytes_toNat, byteOf_toNat]
  cases clear <;> simp [due, positive]

theorem State.commandTracking_decay {s t : State} (due : s.due = { Due.nothing with decay := true }) {body : State → Answer} {code : ReplyCode}
    {data : List Byte} (answers : body s = (t, code, data)) : s.commandTracking .panel .keytrack body = t.reply .panel ⟨0x44#8, code, data⟩ := by
  rw [State.commandTracking, State.completeButDecay_decay due, State.decoded_permitted s (by decide), answers]
  rfl

/-- Settles O38: the decay event, the rows and commands that meet it, and the saturation halving. -/
theorem decayEventEvaluatesAndHalves : Obligations.DecayEventEvaluatesAndHalves := by
  refine ⟨fun s off => ?_, fun s best due => ?_, fun s k c waits row => ?_, fun s c due writes => ?_, fun s b due low high multiple margin => ?_,
    fun acc x w length lt => ⟨fun fits => ?_, fun exceeds => ?_⟩⟩
  · exact congrArg Host.Outcome.next (by simp [State.decayRow, off])
  · intro t members total score highest current lowest margin outcome record key
    simp only [score, total, ← keyScore_eq] at highest current lowest
    have evaluated : s.evaluateKey = record := by
      rw [State.evaluateKey_eq (s := s) rfl highest current lowest]
      simp only [record, outcome, margin, score, total, keyScore_eq]
      rfl
    refine ⟨fun follows => congrArg Host.Outcome.next ?_, fun alone => congrArg Host.Outcome.next ?_⟩
    · rw [State.decayRow_waits due follows, State.evaluation_eq, evaluated]
      rfl
    · rw [State.decayRow_takes due alone, evaluated]
      split
      next proposed =>
        have proposed : outcome = .proposed := proposed
        simp only [State.proposed, key, proposed, true_and, if_true]
        rfl
      next stands =>
        have stands : ¬outcome = .proposed := stands
        simp only [key, stands, false_and, if_false]
        exact (State.publishChanges_self (s.judgedBy record)).symm
  · have row : (c = .settleComplete ∧ s.due.start.isSome = true) ∨ (c = .dwellExpiry ∧ s.due.dwell = true) := by
      rw [Due.start_isSome]
      exact row
    obtain ⟨u, no_proposal, ran, waiting⟩ := State.waiting_rows waits row
    have released := State.release_waiting no_proposal k
    exact ⟨u, ran, fun follows => waiting.trans (congrArg Host.Outcome.next (released.1 follows)),
      fun alone => waiting.trans (congrArg Host.Outcome.next (released.2 alone))⟩
  · obtain ⟨f, stands, meets⟩ := exec_meeting writes
    have met := State.meeting_decay due stands
    have judged : ({ s with due := Due.nothing, key := s.decayRow.key } : State) = s.judgedBy s.evaluateKey := by
      rw [State.decayRow_key due, ← State.judgedBy_quiet due s.evaluateKey]
      rfl
    refine ⟨s.decayRow, rfl, f (s.judgedBy s.evaluateKey), ?_, fun unproposed => ?_, fun x evaluated proposed => ?_⟩
    · exact (congrArg (exec c) judged).trans
        ((meets _).trans (congrArg Host.Outcome.next ((State.judgedBy_quiet due s.evaluateKey).meeting_marksStand stands).1))
    · rw [meets, met, if_neg (unproposed s.evaluateKey (by rw [State.decayRow_key due]; rfl))]
    · rw [State.decayRow_key due] at evaluated
      obtain rfl : s.evaluateKey = x := Option.some.inj evaluated
      rw [meets, met, if_pos proposed]
      rfl
  · have ok := And.intro low (And.intro high (And.intro multiple margin))
    exact ⟨congrArg Host.Outcome.next (State.commandTracking_decay (body := fun u => u.answerKeytrack b false) due (State.answerKeytrack_decay due b false ok)),
      congrArg Host.Outcome.next (State.commandTracking_decay (body := fun u => u.answerKeytrack b true) due (State.answerKeytrack_decay due b true ok))⟩
  · simp only [integrate, if_neg (Nat.not_lt.mpr fits)]
  · simp only [integrate, if_pos exceeds, getD_halve]
    rfl

end Sys2Proof.Machine

/-! ## The line condition and its settings (R69, R79, R80, R88 to R90) -/

namespace Sys2Proof.Machine

/-! ### Usability (R69, R70) -/

theorem LineCondition.setsAside_iff (c : LineCondition) : c.setsAside = true ↔ c = .stale ∨ c = .lost ∨ c = .broken := by
  cases c <;> simp [LineCondition.setsAside]

/-- R69: what sets the chord in force aside. -/
def Context.Aside (c : Context) : Prop :=
  switchSet c.switches .stalefall = true ∧ c.chord.owner = .source (.auto .chordline) ∧
    (c.lineCond = .stale ∨ c.lineCond = .lost ∨ c.lineCond = .broken)

theorem Context.usable_iff (c : Context) : c.usable = true ↔ c.chord.value ≠ none ∧ ¬c.Aside := by
  simp only [Context.usable, Context.Aside, ← LineCondition.setsAside_iff, Bool.and_eq_true, Bool.not_eq_true', Option.isSome_iff_ne_none,
    ← Bool.not_eq_true, decide_eq_true_eq, and_assoc]

/-- R70: the chord that a publication carries. -/
theorem Context.published_chord (c : Context) {aside : Prop} [Decidable aside] (h : aside ↔ c.Aside) :
    (if c.usable then c.chord.value else none) = if aside then none else c.chord.value := by
  by_cases set : aside
  · rw [if_pos set, if_neg fun usable => (c.usable_iff.mp usable).2 (h.mp set)]
  · rw [if_neg set]
    rcases value : c.chord.value with _ | v
    · exact ite_self none
    · rw [if_pos (c.usable_iff.mpr ⟨by simp [value], mt h.mpr set⟩)]

/-! ### A changed condition (R89, R90) -/

/-- R90: the chord field after the break action, when the condition entered is severe. -/
def Field.broken (f : Field (Option Chord)) (act : BreakAction) (severe : Prop) [Decidable severe] : Field (Option Chord) :=
  if severe ∧ act = .clear ∧ f.owner = .source (.auto .chordline) then ⟨none, .source (.auto .chordline), none, none⟩ else f

section
variable {s : State}

/-- R52: a field that an automatic source owns is unpinned. -/
theorem Field.PinOwned.unpinned {α : Type} {f : Field α} (h : f.PinOwned) {a : Auto} (owned : f.owner = .source (.auto a)) : f.pin = none := by
  rcases pin : f.pin with _ | m
  · rfl
  · have manual := h.1 m (by rw [pin]; rfl)
    rw [owned] at manual
    cases manual

theorem State.breakAction_eq (owned : s.ctx.chord.PinOwned) :
    s.breakAction = { s with ctx := { s.ctx with chord := s.ctx.chord.broken s.line.settings.breakAction True } } := by
  rw [State.breakAction, Field.broken]
  by_cases clears : s.line.settings.breakAction = .clear ∧ s.ctx.chord.owner = .source (.auto .chordline)
  · rw [if_pos clears, if_pos ⟨trivial, clears⟩, State.autoChord_unpinned (owned.unpinned clears.2)]
  · rw [if_neg clears, if_neg fun h => clears h.2]

theorem State.lossActions_eq (owned : s.ctx.chord.PinOwned) (c : LineCondition) :
    s.lossActions c = { s with
      ctx := { s.ctx with chord := s.ctx.chord.broken s.line.settings.breakAction (c = .lost ∨ c = .broken) }
      queue := if c = .lost ∨ c = .broken then [] else s.queue
      matcher := if c = .lost ∨ c = .broken then s.matcher.map (fun m => { m with discarded := true }) else s.matcher
      fault := if c = .lost then (s.raise .lineLost).fault else s.fault } := by
  cases c
  case lost =>
    rw [State.lossActions, State.breakAction_eq (s := s.flushQueue.raise .lineLost) owned]
    simp [Field.broken, State.raise]
  case broken =>
    rw [State.lossActions, State.breakAction_eq (s := s.flushQueue) owned]
    simp [Field.broken]
  all_goals simp [State.lossActions, Field.broken]

theorem State.handCondition_same {c : LineCondition} (same : c = s.line.cond) : s.handCondition c = s := by rw [State.handCondition, if_pos same]

/-- R89, R90: a changed condition and its entry actions, as one event. -/
theorem State.handCondition_changed (owned : s.ctx.chord.PinOwned) {c : LineCondition} (changed : c ≠ s.line.cond) :
    s.handCondition c = State.publishChanges { s with
      line := { s.line with cond := c }
      ctx := { s.ctx with lineCond := c, chord := s.ctx.chord.broken s.line.settings.breakAction (c = .lost ∨ c = .broken) }
      queue := if c = .lost ∨ c = .broken then [] else s.queue
      matcher := if c = .lost ∨ c = .broken then s.matcher.map (fun m => { m with discarded := true }) else s.matcher
      fault := if c = .lost then (s.raise .lineLost).fault else s.fault } s.ctx false := by
  rw [State.handCondition, if_neg changed, State.lossActions_eq owned]

/-- R89: a condition that has no entry actions. -/
theorem State.handCondition_mild {c : LineCondition} (mild : c = .off ∨ c = .listening) :
    s.handCondition c = if c = s.line.cond then s
      else State.publishChanges { s with line := { s.line with cond := c }, ctx := { s.ctx with lineCond := c } } s.ctx false := by
  obtain rfl | rfl := mild <;> rfl

theorem State.lineBreak_enabled (enabled : s.line.settings.enable = true) :
    s.lineBreak = State.handCondition { s.raise .lineBreak with line := { s.line with broken := true } } .broken := by
  rw [State.lineBreak, if_pos enabled, State.deriveCondition, Line.derived_eq]
  simp [enabled]

theorem State.takeSilence_due (due : s.due.silence = true) :
    s.takeSilence = State.handCondition { s with due := { s.due with silence := false } } s.line.derived := by
  rw [State.takeSilence, if_pos due]
  rfl

end

/-- Settles O34: usability, and the two events by whether the condition changes. -/
theorem breaksAndSilenceSetTheLineCondition : Obligations.BreaksAndSilenceSetTheLineCondition := by
  refine ⟨fun c => ⟨c.usable_iff, ?_⟩, fun s quiet off => congrArg Host.Outcome.next ?_, fun s off => congrArg Host.Outcome.next ?_,
    fun s u c cond owned event => ?_⟩
  · exact congrArg (fun x => (⟨c.key.value, c.scale.value, x, c.switches⟩ : ContextCopy)) (c.published_chord Iff.rfl)
  · rw [quiet.complete, State.lineBreak, off]
    rfl
  · exact State.takeSilence_not_due off
  · have handed : exec c s = .next (u.handCondition cond) ∧ u.line.cond = s.line.cond ∧ u.line.settings = s.line.settings ∧ u.ctx = s.ctx ∧
        u.queue = s.queue ∧ u.matcher = s.matcher := by
      obtain ⟨rfl, quiet, enabled, rfl, rfl⟩ | ⟨rfl, due, rfl, rfl⟩ := event
      · refine ⟨congrArg Host.Outcome.next ?_, rfl, rfl, rfl, rfl, rfl⟩
        rw [quiet.complete, State.lineBreak_enabled enabled]
      · refine ⟨congrArg Host.Outcome.next ?_, rfl, rfl, rfl, rfl, rfl⟩
        rw [State.takeSilence_due due, Line.derived_eq]
    obtain ⟨ran, line, settings, ctx, queue, matcher⟩ := handed
    refine ⟨fun same => ?_, fun changed => ?_⟩
    · rw [ran, State.handCondition_same (by rw [line]; exact same)]
    · rw [ran, State.handCondition_changed (by rw [ctx]; exact owned.2.2) (by rw [line]; exact changed), ctx, queue, matcher, settings]
      rfl

end Sys2Proof.Machine

/-! ## CHORDLINE (R79, R80) -/

namespace Sys2Proof.Machine

/-! ### The settings a record carries -/

theorem readBaud_eq (b : Byte) :
    readBaud b = if b.toNat ≤ 3 then some (if b = 0#8 then .b19200 else if b = 1#8 then .b38400 else if b = 2#8 then .b57600 else .b115200)
      else none := by
  have codes : b.toNat ≤ 3 ↔ b = 0#8 ∨ b = 1#8 ∨ b = 2#8 ∨ b = 3#8 := by bv_omega
  by_cases zero : b = 0#8 <;> by_cases one : b = 1#8 <;> by_cases two : b = 2#8 <;> by_cases three : b = 3#8 <;>
    simp [readBaud, codes, zero, one, two, three]

theorem readParity_eq (b : Byte) :
    readParity b = if b.toNat ≤ 2 then some (if b = 0#8 then .none else if b = 1#8 then .even else .odd) else none := by
  have codes : b.toNat ≤ 2 ↔ b = 0#8 ∨ b = 1#8 ∨ b = 2#8 := by bv_omega
  by_cases zero : b = 0#8 <;> by_cases one : b = 1#8 <;> by_cases two : b = 2#8 <;> simp [readParity, codes, zero, one, two]

/-- R79: the six settings, each in its range. -/
theorem readLine_eq (b : LineBytes) (e : Byte) :
    readLine b (readOnOff e) =
      if b.baud.toNat ≤ 3 ∧ b.parity.toNat ≤ 2 ∧ b.breakAction.toNat ≤ 1 ∧ e.toNat ≤ 1 then
        some { baud := if b.baud = 0#8 then .b19200 else if b.baud = 1#8 then .b38400 else if b.baud = 2#8 then .b57600 else .b115200
               parity := if b.parity = 0#8 then .none else if b.parity = 1#8 then .even else .odd
               stale := b.stale.toNat, lost := b.lost.toNat, breakAction := if b.breakAction = 0#8 then .hold else .clear
               enable := decide (e = 0#8) }
      else none := by
  have on : (if e = 0#8 then true else false) = decide (e = 0#8) := by simp
  simp only [readLine, readBaud_eq, readParity_eq, readBreakAction, twoCodes_eq, readOnOff_eq, on]
  by_cases baud : b.baud.toNat ≤ 3
  · by_cases parity : b.parity.toNat ≤ 2
    · by_cases act : b.breakAction.toNat ≤ 1 <;> by_cases enable : e.toNat ≤ 1 <;>
        simp only [baud, parity, act, enable, and_self, and_true, and_false, if_true, if_false]
    · simp only [baud, parity, and_false, false_and, if_true, if_false]
  · simp only [baud, false_and, if_false]

/-! ### What the receiver does (R79, R80) -/

theorem Line.abandonReception_eq (l : Line) :
    l.abandonReception = { l with wait := .high, fifo := [], gapPending := false
                                  assembler := match l.assembler with
                                    | .matching => Assembler.matching
                                    | _ => Assembler.hunt } := by
  cases assembler : l.assembler <;> simp only [Line.abandonReception, assembler, Assembler.abandoned]

theorem State.handCondition_line (s : State) (c : LineCondition) : (s.handCondition c).line = { s.line with cond := c } := by
  rw [State.handCondition]
  split
  next same => rw [same]
  next => simp

section
variable {s : State} {old : LineSettings}

/-- R80: from on to off. -/
theorem State.lineChanged_disables (on : old.enable = true) (off : s.line.settings.enable = false) :
    (s.lineChanged old).lineThresholds = State.handCondition { s with
      line := { s.line.abandonReception with frameSeen := false, broken := false }
      queue := [], matcher := s.matcher.map fun m => { m with discarded := true } } .off := by
  have disabled : s.lineChanged old = s.disableLine := by simp [State.lineChanged, on, off]
  have stays : s.disableLine.line.settings.enable = false := by rw [State.disableLine, State.handCondition_line]; exact off
  rw [disabled, State.lineThresholds, if_neg (by rw [stays]; exact Bool.false_ne_true)]
  rfl

/-- R80, R88: from off to on: the condition derived afresh is LISTENING again. -/
theorem State.lineChanged_enables (off : old.enable = false) (on : s.line.settings.enable = true) :
    (s.lineChanged old).lineThresholds =
      State.handCondition { s with line := { s.line with wait := .high, silence := 0, frameSeen := false, broken := false } } .listening := by
  have enabled : s.lineChanged old = s.enableLine := by simp [State.lineChanged, on, off]
  have line : s.enableLine.line = { s.line with wait := .high, silence := 0, frameSeen := false, broken := false, cond := .listening } := by
    rw [State.enableLine, State.handCondition_line]
  have derived : s.enableLine.line.derived = s.enableLine.line.cond := by
    rw [line, Line.derived_eq]
    simp [on]
  rw [enabled, State.lineThresholds, line, if_pos on, State.deriveCondition, State.handCondition_same derived]
  rfl

/-- R79: while the line stays on. -/
theorem State.lineChanged_stays (was : old.enable = true) (on : s.line.settings.enable = true) :
    (s.lineChanged old).lineThresholds = State.deriveCondition { s with
      line := if old.baud ≠ s.line.settings.baud ∨ old.parity ≠ s.line.settings.parity then s.line.abandonReception else s.line } := by
  have changed : s.lineChanged old = { s with
      line := if old.baud ≠ s.line.settings.baud ∨ old.parity ≠ s.line.settings.parity then s.line.abandonReception else s.line } := by
    by_cases differ : old.baud ≠ s.line.settings.baud ∨ old.parity ≠ s.line.settings.parity
    · simp only [State.lineChanged, was, on, if_pos differ]
      simp [differ]
    · simp only [State.lineChanged, was, on, if_neg differ]
      push Not at differ
      simp [differ]
  rw [State.lineThresholds, changed, if_pos]
  split
  · exact on
  · exact on

theorem State.lineChanged_stays_off (was : old.enable = false) (off : s.line.settings.enable = false) :
    (s.lineChanged old).lineThresholds = s := by
  simp [State.lineChanged, State.lineThresholds, was, off]

end

section
variable {s : State} {b : LineBytes} {e : Byte}

theorem State.Quiet.exec_chordline {t : State} {code : ReplyCode} {data : List Byte} (h : s.Quiet)
    (answers : s.answerLine b (readOnOff e) = (t, code, data)) : exec (.chordline .panel b e) s = .next (t.reply .panel ⟨0x43#8, code, data⟩) :=
  congrArg Host.Outcome.next (h.command_answers (c := .chordline) (body := fun u => u.answerLine b (readOnOff e)) (by decide) answers)

theorem State.answerLine_range (bad : readLine b (readOnOff e) = none) : s.answerLine b (readOnOff e) = (s, .range, []) := by
  simp only [State.answerLine, bad, answer]

theorem State.answerLine_set {new : LineSettings} (read : readLine b (readOnOff e) = some new) :
    s.answerLine b (readOnOff e) =
      ((State.lineChanged { s with line := { s.line with settings := new } } s.line.settings).lineThresholds, .done, []) := by
  simp only [State.answerLine, read, answer]

end

/-- Settles O37: the two forms, the range checks, and the settings stored by the enable before and after. -/
theorem chordlineSetsTheReceiver : Obligations.ChordlineSetsTheReceiver := by
  refine ⟨fun s src b => ⟨rfl, rfl⟩, ?_⟩
  intro s b e quiet inRange
  refine ⟨fun bad => quiet.exec_chordline (State.answerLine_range (by rw [readLine_eq, if_neg bad])), ?_⟩
  intro ok new kept idle restarted discarded answered handed
  have stored := State.answerLine_set (s := s) (show readLine b (readOnOff e) = some new by rw [readLine_eq, if_pos ok])
  refine ⟨fun on off => ?_, fun off on => ?_, ?_, fun was off => ?_⟩
  · rw [State.lineChanged_disables (s := { s with line := kept }) on off, State.handCondition_mild (.inl rfl), Line.abandonReception_eq] at stored
    exact quiet.exec_chordline stored
  · rw [State.lineChanged_enables (s := { s with line := kept }) off on, State.handCondition_mild (.inr rfl)] at stored
    exact quiet.exec_chordline stored
  · intro was on u cond
    rw [State.lineChanged_stays (s := { s with line := kept }) was on, Line.abandonReception_eq] at stored
    have line {p : Line → Prop} (changed : p restarted) (same : p kept) : p u.line := by
      show p (if _ then _ else _)
      split
      · exact changed
      · exact same
    have settings : u.line.settings = new := line (p := fun l => l.settings = new) rfl rfl
    have condition : u.line.cond = s.line.cond := line (p := fun l => l.cond = s.line.cond) rfl rfl
    have derived : u.line.derived = cond := by
      refine line (p := fun l => l.derived = cond) ?_ ?_ <;>
        exact (Line.derived_eq _).trans (if_neg fun off => Bool.noConfusion (on.symm.trans off))
    have ran : answered (u.handCondition cond) := by
      rw [← derived]
      exact quiet.exec_chordline stored
    refine ⟨fun same => ?_, fun changed owned => ?_⟩
    · rw [State.handCondition_same (same.trans condition.symm)] at ran
      exact ran
    · rw [State.handCondition_changed (s := u) owned.2.2 (by rw [condition]; exact changed), settings] at ran
      exact ran
  · rw [State.lineChanged_stays_off (s := { s with line := kept }) was off] at stored
    exact quiet.exec_chordline stored

end Sys2Proof.Machine

/-! ## The end of a match and the characters that wait (R77, R82, R83, R93) -/

namespace Sys2Proof.Machine

/-! ### The frame assembler (R82, R83) -/

theorem readFrameKind_none {n : Nat} (outside : n = 0 ∨ 5 < n) : readFrameKind n = none := by
  match n with
  | 0 => rfl
  | 1 | 2 | 3 | 4 | 5 => omega
  | n + 6 => rfl

section
variable (s : State) (c : LineChar)

theorem State.huntChar_unmarked (unmarked : c.marker = false) : s.huntChar c = s.setAssembler .hunt := by
  simp [State.huntChar, unmarked]

theorem State.huntChar_bad (marked : c.marker = true) (bad : c.framing = true ∨ c.parity = true) : s.huntChar c = s.dropFrame := by
  simp [State.huntChar, marked, bad]

theorem State.huntChar_header (marked : c.marker = true) (good : ¬(c.framing = true ∨ c.parity = true)) : s.huntChar c = s.takeHeader c.value := by
  simp only [not_or, Bool.not_eq_true] at good
  simp [State.huntChar, marked, good]

theorem State.takeHeader_drops (v : Byte) (outside : v.toNat / 16 = 0 ∨ 5 < v.toNat / 16 ∨ 8 < v.toNat % 16) : s.takeHeader v = s.dropFrame := by
  rw [← or_assoc] at outside
  rcases kind : readFrameKind (v.toNat / 16) with _ | k
  · simp only [State.takeHeader, kind]
  · obtain none | long := outside
    · rw [readFrameKind_none none] at kind
      cases kind
    · simp only [State.takeHeader, kind, if_pos long]

theorem State.takeHeader_kind {v : Byte} {k : FrameKind} (kind : readFrameKind (v.toNat / 16) = some k) (short : v.toNat % 16 ≤ 8) :
    s.takeHeader v = if v.toNat % 16 = 0 then s.completeFrame k [] else s.setAssembler (.frame k (v.toNat % 16) []) := by
  simp only [State.takeHeader, kind, if_neg (Nat.not_lt.mpr short)]

/-- R82: the assembler in HUNT. -/
theorem State.hunts_huntChar : s.Hunts c (s.huntChar c) := by
  refine ⟨fun unmarked => s.huntChar_unmarked c unmarked, fun marked bad => s.huntChar_bad c marked bad, fun marked good outside => ?_,
    fun marked good k named => ?_⟩
  · rw [s.huntChar_header c marked good, s.takeHeader_drops c.value outside]
    rfl
  · have kind : readFrameKind (c.value.toNat / 16) = some k := by
      simp only [List.mem_cons, Prod.mk.injEq, List.not_mem_nil, or_false] at named
      obtain ⟨e, rfl⟩ | ⟨e, rfl⟩ | ⟨e, rfl⟩ | ⟨e, rfl⟩ | ⟨e, rfl⟩ := named <;> rw [e] <;> rfl
    rw [s.huntChar_header c marked good]
    refine ⟨fun low high => ?_, fun empty => ?_⟩
    · rw [s.takeHeader_kind kind high, if_neg (by omega)]
      rfl
    · rw [s.takeHeader_kind kind (by omega), if_pos empty]

theorem State.takesCharacter_hunt (assembler : s.line.assembler = .hunt) : s.TakesCharacter c (s.huntChar c) :=
  ⟨fun _ => s.hunts_huntChar c, fun k n data frame => by cases assembler.symm.trans frame⟩

/-- R83: the assembler in FRAME. -/
theorem State.takesCharacter_frame {k : FrameKind} {n : Nat} {data : List Byte} (assembler : s.line.assembler = .frame k n data) :
    s.TakesCharacter c (s.frameChar k n data c) := by
  refine ⟨fun hunts => (by cases assembler.symm.trans hunts), fun k' n' data' same => ?_⟩
  cases assembler.symm.trans same
  refine ⟨fun gap => ?_, fun gapless bad => ?_, fun gapless good marked => ?_, fun gapless good unmarked short => ?_, fun gapless good unmarked full => ?_⟩
  · rw [State.frameChar, if_pos gap]
    exact s.hunts_huntChar c
  · simp only [State.frameChar, gapless, bad, Bool.or_eq_true, if_true, if_false, Bool.false_eq_true]
    rfl
  all_goals
    simp only [not_or, Bool.not_eq_true] at good
    obtain ⟨framed, even⟩ := good
  · simp only [State.frameChar, gapless, framed, even, marked, Bool.or_self, Bool.false_eq_true, if_true, if_false]
    exact (s.raise .frameDrop).hunts_huntChar c
  · simp only [State.frameChar, gapless, framed, even, unmarked, Bool.or_self, Bool.false_eq_true, if_false, if_neg (Nat.not_le.mpr short)]
    rfl
  · simp only [State.frameChar, gapless, framed, even, unmarked, Bool.or_self, Bool.false_eq_true, if_false, if_pos full]

end

/-! ### The characters that wait (R77) -/

theorem State.takeChar_empty {s : State} (empty : s.line.fifo = []) : s.takeChar = s := by simp only [State.takeChar, empty]

theorem State.drain_stands {s : State} (stands : s.takeChar = s) (n : Nat) : State.drain n s = s := by
  induction n with
  | zero => rfl
  | succ n ih => rw [State.drain, stands, ih]

/-- R77: the assembler, not in MATCHING, takes the oldest character. -/
theorem State.takeChar_takes {s : State} {c : LineChar} {rest : List LineChar} (fifo : s.line.fifo = c :: rest) (free : s.line.assembler ≠ .matching) :
    State.TakesCharacter c { s with line := { s.line with fifo := rest } } s.takeChar ∧ s.takeChar.line.fifo = rest := by
  rcases assembler : s.line.assembler with _ | ⟨k, n, data⟩ | _
  · have taken : s.takeChar = State.huntChar { s with line := { s.line with fifo := rest } } c := by simp only [State.takeChar, fifo, assembler]
    rw [taken]
    exact ⟨State.takesCharacter_hunt { s with line := { s.line with fifo := rest } } c assembler, by simp⟩
  · have taken : s.takeChar = State.frameChar { s with line := { s.line with fifo := rest } } k n data c := by
      simp only [State.takeChar, fifo, assembler]
    rw [taken]
    exact ⟨State.takesCharacter_frame { s with line := { s.line with fifo := rest } } c assembler, by simp⟩
  · exact absurd assembler free

/-- R77: the assembler takes every character that waits, until one has begun a match. -/
theorem State.drain_takesWaiting {l : List LineChar} {s : State} (fifo : s.line.fifo = l) {n : Nat} (le : l.length ≤ n) :
    State.TakesWaiting l s (State.drain n s) := by
  induction l generalizing s n with
  | nil => exact State.drain_stands (State.takeChar_empty fifo) n
  | cons c rest ih =>
    obtain ⟨n, rfl⟩ : ∃ m, n = m + 1 := Nat.exists_eq_succ_of_ne_zero (by simp at le; omega)
    refine ⟨fun matching => ?_, fun free => ?_⟩
    · exact State.drain_stands (by simp only [State.takeChar, fifo, matching]) _
    · obtain ⟨takes, left⟩ := State.takeChar_takes fifo free
      exact ⟨s.takeChar, takes, ih left (by simpa using le)⟩

/-! ### MATCH_END (R91, R93) -/

section
variable {s : State} {m : Match}

/-- R91, R93: with nothing due, the end of a match. -/
theorem State.Quiet.exec_matchEnd (h : s.Quiet) : exec .matchEnd s = .next s.matchEnd :=
  congrArg Host.Outcome.next (h.meeting_marksStand fun s p d => s.marked_matchEnd p d).1

theorem State.matchEnd_drains (matching : s.matcher = some m) :
    s.matchEnd = State.drain 2 ((State.matchOutcome { s with matcher := none } m).setAssembler .hunt) := by
  simp only [State.matchEnd, matching]

theorem State.matchOutcome_discarded (h : m.discarded = true) : s.matchOutcome m = s := by simp [State.matchOutcome, h]

theorem State.matchOutcome_unrecognized (h : m.discarded = false) (none : matchResult m.shapes m.notes = none) :
    s.matchOutcome m = s.raise .unrecognized := by
  simp [State.matchOutcome, h, none]

theorem State.matchOutcome_chord (h : m.discarded = false) {c : Chord} (found : matchResult m.shapes m.notes = some c) :
    s.matchOutcome m = s.chordAt (some c) m.applyAt := by
  simp [State.matchOutcome, h, found]

theorem State.chordAt_queues (v : Option Chord) {a : ApplyAt} {t : Trigger} (queued : (a, t) ∈ [(ApplyAt.onset, Trigger.onset), (.phrase, .phrase)]) :
    s.chordAt v a = s.appendQueue ⟨v, t⟩ := by
  simp only [List.mem_cons, Prod.mk.injEq, List.not_mem_nil, or_false] at queued
  obtain ⟨rfl, rfl⟩ | ⟨rfl, rfl⟩ := queued <;> rfl

end

/-- Settles O36: the result by its outcome and apply-at, and then the characters that wait. -/
theorem matchEndHandlesTheResult : Obligations.MatchEndHandlesTheResult := by
  refine fun s quiet => ⟨fun none => ?_, fun m matching short => ?_⟩
  · rw [quiet.exec_matchEnd, State.matchEnd, none]
  · intro u resumed
    have resumes {v : State} (left : (State.matchOutcome { s with matcher := none } m).setAssembler .hunt = v) (fifo : v.line.fifo = s.line.fifo) :
        ∃ t, resumed v t := by
      refine ⟨State.drain 2 v, ?_, State.drain_takesWaiting fifo short⟩
      rw [quiet.exec_matchEnd, State.matchEnd_drains matching, left]
    refine ⟨fun discarded => resumes ?_ rfl, fun kept unrecognized => resumes ?_ rfl, fun kept c found => ⟨fun now => resumes ?_ ?_, fun trigger queued =>
      ⟨fun free => resumes ?_ rfl, fun full => resumes ?_ rfl⟩⟩⟩
    · rw [State.matchOutcome_discarded discarded]
      rfl
    · rw [State.matchOutcome_unrecognized kept unrecognized]
      rfl
    · rw [State.matchOutcome_chord kept found, now]
      exact State.publishChanges_setAssembler _ _ _ _
    · simp [u]
    · rw [State.matchOutcome_chord kept found, State.chordAt_queues _ queued, State.appendQueue, if_pos free]
      rfl
    · rw [State.matchOutcome_chord kept found, State.chordAt_queues _ queued, State.appendQueue, if_neg (Nat.not_lt.mpr full), List.drop_one]
      rfl

end Sys2Proof.Machine

/-! ## RESTART (R170, R178) -/

namespace Sys2Proof.Machine

theorem voicesAtReset_mapIdx {f : Fin 4 → Voice → Voice} {plans : List Plan} (h : ∀ i k, f i (.atReset k plans) = .atReset k plans) :
    (voicesAtReset plans).mapIdx f = voicesAtReset plans := by
  simp only [voicesAtReset, Quad.mapIdx, h]

theorem voicesAtReset_map {f : Voice → Voice} {plans : List Plan} (h : ∀ k, f (.atReset k plans) = .atReset k plans) :
    (voicesAtReset plans).map f = voicesAtReset plans := by
  simp only [voicesAtReset, Quad.map, h]

theorem ContextCopy.atReset_enabled (i : Fin 4) : switchSet ContextCopy.atReset.switches (.enable i) = true := by
  match i with
  | 0 => rfl
  | 1 => rfl
  | 2 => rfl
  | 3 => rfl

/-- R137: a voice with no target does not sound. -/
theorem State.soundCondition_untargeted (s : State) {r : RenderRecord} (h : r.hasTarget = false) : s.soundCondition r = false := by
  simp [State.soundCondition, h]

/-- R170: the CONTEXT publication of a RESTART finds no note, and leaves every voice as the reset has it. -/
theorem State.resetRuntime_published (s : State) (c : Changes) : s.resetRuntime.publish .context c = s.resetRuntime := by
  have handled (i : Fin 4) (k : Fin 16) (e : Surroundings) (copy : e.copy = .atReset) (silent : e.note = none) :
      (Voice.atReset k s.tables.plans).afterPublication ⟨.context, .atReset, c⟩ e i = .atReset k s.tables.plans := by
    simp only [Voice.afterPublication, Voice.atPublication, Voice.atContext, silent, Surroundings.enabled, copy, ContextCopy.atReset_enabled]
    rfl
  have tested (t : State) (k : Fin 16) :
      (fun v : Voice => { v with ren := v.ren.retest (t.soundCondition v.ren) }) (Voice.atReset k s.tables.plans) = .atReset k s.tables.plans := by
    simp only [t.soundCondition_untargeted (r := (Voice.atReset k s.tables.plans).ren) rfl]
    rfl
  have copied : s.resetRuntime.ctx.published = .atReset := rfl
  have published : s.resetRuntime.publish .context c = State.retest { s.resetRuntime with
      voices := s.resetRuntime.voices.mapIdx fun i v => v.afterPublication ⟨.context, .atReset, c⟩ ⟨s.tables, .atReset, none, 0⟩ i } := by
    rw [State.publish, copied]
    rfl
  have voices : s.resetRuntime.voices = voicesAtReset s.tables.plans := rfl
  rw [published, voices, voicesAtReset_mapIdx fun i k => handled i k _ rfl rfl, State.retest, State.mapRen,
    voicesAtReset_map fun k => tested _ k]
  rfl

/-- R81: the condition handed on after a RESTART changes no chord's usability. -/
theorem State.resetRuntime_handOff (s : State) :
    s.resetRuntime.handOff = { s.resetRuntime with ctx := { s.resetRuntime.ctx with lineCond := s.resetRuntime.line.cond } } :=
  State.publishChanges_unchanged ((Context.changes_any _ _ _).mpr ⟨rfl, rfl, rfl, rfl, rfl, rfl⟩)

theorem State.answerRestart_eq (s : State) :
    s.answerRestart =
      ({ s.resetRuntime with ctx := { s.resetRuntime.ctx with lineCond := s.resetRuntime.line.cond } }, .done, []) := by
  rw [State.answerRestart, State.resetRuntime_published, State.resetRuntime_handOff, answer]

/-- R170: the voices at RESTART, bound to slots 0, 1, 4 and 5. -/
theorem voicesAtReset_bound {i : Fin 4} {k : Fin 16} (bound : (i, k) ∈ [((0 : Fin 4), (0 : Fin 16)), (1, 1), (2, 4), (3, 5)]) (plans : List Plan) :
    (voicesAtReset plans).get i = .atReset k plans := by
  simp only [List.mem_cons, Prod.mk.injEq, List.not_mem_nil, or_false] at bound
  obtain ⟨rfl, rfl⟩ | ⟨rfl, rfl⟩ | ⟨rfl, rfl⟩ | ⟨rfl, rfl⟩ := bound <;> rfl

/-- Settles O48: the reset from PANEL, and the refusal from STAGE and DESK. -/
theorem restartResetsTheRuntime : Obligations.RestartResetsTheRuntime := by
  refine fun s quiet => ⟨⟨_, congrArg Host.Outcome.next
    (quiet.command_answers (c := .restart) (body := State.answerRestart) (by decide) s.answerRestart_eq), rfl, rfl, rfl, rfl, rfl, rfl, rfl, rfl,
    fun i k bound => ?_, rfl, rfl, rfl, rfl, rfl, rfl, rfl, quiet.symm, rfl⟩, ?_, ?_⟩
  · have voice : _ = Voice.atReset k s.tables.plans := voicesAtReset_bound bound s.tables.plans
    exact ⟨congrArg Voice.res voice, congrArg Voice.ren voice⟩
  · exact quiet.exec_notPermitted (i := .restart .stage) rfl (by decide)
  · exact quiet.exec_notPermitted (i := .restart .desk) rfl (by decide)

end Sys2Proof.Machine

/-! ## The chord matcher (R92) -/

namespace Sys2Proof.Machine

/-! ### Sets of pitch classes -/

/-- The pitch classes in a set, as numbers. -/
def classesOf (p : PitchSet) : Finset Nat := (Finset.range 12).filter fun x => p.getLsbD x = true

theorem mem_classesOf {p : PitchSet} {x : Nat} : x ∈ classesOf p ↔ x < 12 ∧ p.getLsbD x = true := by simp [classesOf]

theorem setSize_eq_card (p : PitchSet) : setSize p = (classesOf p).card := by
  have members : classesOf p = (membersOf p).toFinset := by
    ext x
    simp [mem_classesOf, membersOf]
  have distinct : (membersOf p).Nodup := List.Nodup.filter _ List.nodup_range
  rw [members, List.toFinset_card_of_nodup distinct, setSize]

theorem classesOf_and (p q : PitchSet) : classesOf (p &&& q) = classesOf p ∩ classesOf q := by
  ext x
  simp only [Finset.mem_inter, mem_classesOf, BitVec.getLsbD_and, Bool.and_eq_true]
  tauto

theorem classesOf_andNot (p q : PitchSet) : classesOf (p &&& ~~~q) = classesOf p \ classesOf q := by
  ext x
  by_cases h : x < 12 <;> simp [mem_classesOf, h]

/-- R92: the score, counted in members. -/
theorem matchScore_eq_card (p c : PitchSet) :
    matchScore p c = 4 * ((classesOf p ∩ classesOf c).card : Int) - 3 * ((classesOf p \ classesOf c).card : Int) -
      2 * ((classesOf c \ classesOf p).card : Int) := by
  rw [matchScore, setSize_eq_card, setSize_eq_card, setSize_eq_card, classesOf_and, classesOf_andNot, classesOf_andNot]

theorem foldl_classes_getLsbD (l : List Nat) (p : PitchSet) {x : Nat} (h : x < 12) :
    (l.foldl (fun p n => p ||| BitVec.twoPow 12 (n % 12)) p).getLsbD x = true ↔ p.getLsbD x = true ∨ ∃ n ∈ l, n % 12 = x := by
  induction l generalizing p with
  | nil => simp
  | cons n l ih =>
    rw [List.foldl_cons, ih, List.exists_mem_cons_iff, ← or_assoc]
    simp [h, eq_comm (a := x)]

/-- R92: the set P. -/
theorem classesOf_notesSet (l : List Nat) : classesOf (notesSet l) = (l.map (· % 12)).toFinset := by
  ext x
  rw [mem_classesOf, List.mem_toFinset, List.mem_map]
  refine ⟨fun ⟨h, bit⟩ => ?_, fun ⟨n, hn, e⟩ => ?_⟩
  · simpa using (foldl_classes_getLsbD l 0#12 h).mp bit
  · have h : x < 12 := by omega
    exact ⟨h, (foldl_classes_getLsbD l 0#12 h).mpr (.inr ⟨n, hn, e⟩)⟩

/-- R92: the candidate set of a root. -/
theorem classesOf_chordSet (shape : PitchSet) {r : Nat} (h : r < 12) :
    classesOf (chordSet shape r) = (classesOf shape).image fun x => (x + r) % 12 := by
  ext y
  simp only [Finset.mem_image, mem_classesOf, chordSet, BitVec.getLsbD_rotateLeft, Nat.mod_eq_of_lt h]
  refine ⟨fun ⟨hy, bit⟩ => ?_, fun ⟨x, ⟨hx, bit⟩, e⟩ => ⟨by omega, ?_⟩⟩
  · by_cases wraps : y < r
    · exact ⟨12 - r + y, ⟨by omega, by simpa [wraps] using bit⟩, by omega⟩
    · exact ⟨y - r, ⟨by omega, by simpa [wraps, hy] using bit⟩, by omega⟩
  · by_cases wraps : y < r
    · simpa [wraps, show 12 - r + y = x by omega] using bit
    · simpa [wraps, show y - r = x by omega, show y < 12 by omega] using bit

/-! ### The pairs and their order -/

@[ext] theorem Candidate.ext {a b : Candidate} (root : a.root = b.root) (shape : a.shape = b.shape) (score : a.score = b.score) : a = b := by
  cases a; cases b; simp_all

/-- R92: `a` comes before `b` by score, root equal to lowest, slot, root. -/
def Candidate.Precedes (lowest : Fin 12) (a b : Candidate) : Prop :=
  b.score < a.score ∨ b.score = a.score ∧
    (a.root = lowest ∧ b.root ≠ lowest ∨
      (a.root = lowest ↔ b.root = lowest) ∧ (a.shape < b.shape ∨ a.shape = b.shape ∧ a.root < b.root))

theorem Candidate.beats_iff {lowest : Fin 12} {a b : Candidate} : a.beats lowest b = true ↔ a.Precedes lowest b := by
  simp only [Candidate.beats, Candidate.Precedes]
  by_cases score : a.score = b.score
  · by_cases ra : a.root = lowest <;> by_cases rb : b.root = lowest <;> by_cases shape : a.shape = b.shape <;> simp [score, ra, rb, shape]
  · simp [score, Ne.symm score]

theorem Candidate.Precedes.asymm {lowest : Fin 12} {a b : Candidate} (h : a.Precedes lowest b) : ¬b.Precedes lowest a := by
  simp only [Candidate.Precedes, Fin.lt_def, Fin.ext_iff] at *
  omega

/-- R92: the pairs scored are those of a root in P and a non-empty slot. -/
theorem mem_candidates {shapes : List PitchSet} {p : PitchSet} {c : Candidate} :
    c ∈ candidates shapes p ↔
      p.getLsbD c.root.val = true ∧ shapes.getD c.shape.val 0#12 ≠ 0#12 ∧
        c.score = matchScore p (chordSet (shapes.getD c.shape.val 0#12) c.root.val) := by
  obtain ⟨r, k, score⟩ := c
  simp only [candidates, List.mem_flatMap, List.mem_finRange, true_and]
  constructor
  · rintro ⟨r', h⟩
    split at h
    next root =>
      obtain ⟨k', -, h⟩ := List.mem_filterMap.mp h
      split at h
      · cases h
      next filled =>
        cases h
        exact ⟨root, filled, rfl⟩
    next => cases h
  · rintro ⟨root, filled, rfl⟩
    refine ⟨r, ?_⟩
    rw [if_pos root]
    exact List.mem_filterMap.mpr ⟨k, List.mem_finRange k, if_neg filled⟩

/-! ### The winner -/

/-- R92: the better of the best pair so far, if there is one, and the next. -/
def keepBetter (lowest : Fin 12) : Option Candidate → Candidate → Option Candidate
  | none, c => some c
  | some b, c => if c.beats lowest b then some c else some b

theorem matchWinner_eq_foldl (shapes : List PitchSet) (notes : List Nat) :
    matchWinner shapes notes = (candidates shapes (notesSet notes)).foldl (keepBetter (lowestClass notes)) none := by
  rw [matchWinner]
  congr 1
  funext best c
  cases best <;> rfl

section
variable {lowest : Fin 12} {w c d : Candidate} {best : Option Candidate}

theorem keepBetter_origin (h : keepBetter lowest best c = some d) : d = c ∨ best = some d := by
  rcases best with _ | b
  · exact .inl (Option.some.inj h).symm
  · simp only [keepBetter] at h
    split at h
    · exact .inl (Option.some.inj h).symm
    · exact .inr h

theorem keepBetter_takes (first : ∀ b, best = some b → b ≠ w → w.Precedes lowest b) : keepBetter lowest best w = some w := by
  rcases best with _ | b
  · rfl
  · by_cases same : b = w
    · rw [same, keepBetter, ite_self]
    · rw [keepBetter, if_pos (Candidate.beats_iff.mpr (first b rfl same))]

theorem keepBetter_keeps (first : w.Precedes lowest c) : keepBetter lowest (some w) c = some w := by
  rw [keepBetter, if_neg (mt Candidate.beats_iff.mp first.asymm)]

/-- R92: the pair that comes before every other one is the winner, wherever it stands in the list. -/
theorem foldl_keepBetter (l : List Candidate) (first : ∀ c, c ∈ l ∨ best = some c → c ≠ w → w.Precedes lowest c)
    (mem : w ∈ l ∨ best = some w) : l.foldl (keepBetter lowest) best = some w := by
  induction l generalizing best with
  | nil => simpa using mem
  | cons c l ih =>
    refine ih (fun d hd => first d ?_) ?_
    · obtain rest | kept := hd
      · exact .inl (List.mem_cons_of_mem c rest)
      · exact (keepBetter_origin kept).imp (fun e => by rw [e]; exact List.mem_cons_self) id
    · by_cases same : c = w
      · rw [same]
        exact .inr (keepBetter_takes fun b hb => first b (.inr hb))
      · obtain listed | held := mem
        · exact .inl ((List.mem_cons.mp listed).resolve_left (Ne.symm same))
        · rw [held]
          exact .inr (keepBetter_keeps (first c (.inl List.mem_cons_self) same))

end

/-- R92: the class of the smallest note. -/
theorem lowestClass_eq {notes : List Nat} {low : Nat} (mem : low ∈ notes) (least : ∀ x ∈ notes, low ≤ x) :
    lowestClass notes = Fin.ofNat 12 low := by
  rcases notes with _ | ⟨x, rest⟩
  · cases mem
  · have smallest : (x :: rest).min? = some low := List.min?_eq_some_iff.mpr ⟨mem, least⟩
    have folded : rest.foldl min x = low := Option.some.inj (by rw [← smallest, List.min?_cons'])
    rw [lowestClass, List.headD_cons, List.foldl_cons, min_self, folded]

/-- R92: the result where one pair comes before every other one. -/
theorem matchResult_of_first {shapes : List PitchSet} {notes : List Nat} {w : Candidate} (mem : w ∈ candidates shapes (notesSet notes))
    (first : ∀ c ∈ candidates shapes (notesSet notes), c ≠ w → w.Precedes (lowestClass notes) c) :
    matchResult shapes notes =
      if 8 ≤ w.score then some ⟨w.root, w.shape, storedBass w.root (some (lowestClass notes))⟩ else none := by
  have winner : matchWinner shapes notes = some w := by
    rw [matchWinner_eq_foldl]
    exact foldl_keepBetter _ (fun c hc => first c (by simpa using hc)) (.inl mem)
  rw [matchResult, winner]

theorem matchResult_of_no_pair {shapes : List PitchSet} {notes : List Nat} (empty : candidates shapes (notesSet notes) = []) :
    matchResult shapes notes = none := by
  rw [matchResult, matchWinner_eq_foldl, empty, List.foldl_nil]

/-- Settles O35: the statement's pairs are the candidates, its score theirs, and its order the one they are folded by. -/
theorem matcherPicksTheBestPair : Obligations.MatcherPicksTheBestPair := by
  intro shapes notes low mem least P C score pair first
  have lowest := lowestClass_eq mem least
  have score_eq {r : Nat} (h : r < 12) (k : Nat) : score r k = matchScore (notesSet notes) (chordSet (shapes.getD k 0#12) r) := by
    rw [matchScore_eq_card, classesOf_notesSet, classesOf_chordSet _ h]
    rfl
  have pair_iff (c : Candidate) :
      c ∈ candidates shapes (notesSet notes) ↔ pair c.root.val c.shape.val ∧ c.score = score c.root.val c.shape.val := by
    have root : c.root.val ∈ P ↔ (notesSet notes).getLsbD c.root.val = true := by
      simp only [P, ← classesOf_notesSet, mem_classesOf, c.root.isLt, true_and]
    simp only [mem_candidates, pair, root, score_eq c.root.isLt, c.root.isLt, c.shape.isLt, true_and, and_assoc]
  have root_iff (r : Fin 12) : r = Fin.ofNat 12 low ↔ r.val = low % 12 := by rw [Fin.ext_iff, Fin.val_ofNat]
  refine ⟨fun r k paired best => ?_, fun none => matchResult_of_no_pair ?_⟩
  rw [matchResult_of_first (w := ⟨r, k, score r k⟩) ((pair_iff _).mpr ⟨paired, rfl⟩) fun c hc other => ?_]
  · simp only [storedBass, Option.some.injEq, lowest, eq_comm (b := r), root_iff]
  · obtain ⟨hp, scored⟩ := (pair_iff c).mp hc
    have differs : ¬(r.val = c.root.val ∧ k.val = c.shape.val) := fun ⟨root, shape⟩ =>
      other (Candidate.ext (Fin.ext root.symm) (Fin.ext shape.symm) (by rw [scored, ← root, ← shape]))
    have before := best _ _ hp
    simp only [Candidate.Precedes, scored, lowest, root_iff, Fin.lt_def, Fin.ext_iff, first, ne_eq] at before ⊢
    omega
  · exact List.eq_nil_iff_forall_not_mem.mpr fun c hc => none _ _ ((pair_iff c).mp hc).1

end Sys2Proof.Machine

/-! ## Character reception (R75 to R77) -/

namespace Sys2Proof.Machine

/-! ### The bits of a character (R75, R76) -/

theorem characterBits_eq (p : Parity) : characterBits p = if p = .none then 11 else 12 := by cases p <;> rfl

/-- R75: the samples of one of the first `n` bits disagree. -/
theorem samplesDisagree_eq (n : Nat) (s1 s2 s3 : BitVec 12) :
    samplesDisagree n s1 s2 s3 = decide (∃ i, i < n ∧ (s1.getLsbD i ≠ s2.getLsbD i ∨ s1.getLsbD i ≠ s3.getLsbD i)) := by
  rw [Bool.eq_iff_iff, decide_eq_true_iff]
  simp [samplesDisagree]

theorem foldl_xor_eq (l : List Nat) (f : Nat → Bool) (x : Bool) :
    l.foldl (fun x i => x ^^ f i) x = (x ^^ decide (l.countP f % 2 = 1)) := by
  induction l generalizing x with
  | nil => simp
  | cons i l ih =>
    rw [List.foldl_cons, ih, List.countP_cons]
    obtain zero | one := Nat.mod_two_eq_zero_or_one (l.countP f)
    · cases f i <;> cases x <;> simp [zero, Nat.add_mod]
    · cases f i <;> cases x <;> simp [one, Nat.add_mod]

/-- R76: the 1 bits among bits 1 to 10, counted. -/
theorem onesOdd_eq (b : BitVec 12) : onesOdd b = decide ((List.range' 1 10).countP (fun i => b.getLsbD i) % 2 = 1) := by
  rw [onesOdd, foldl_xor_eq, Bool.false_xor]

/-- R76: the parity error mark, by the count of 1 bits. -/
theorem parityError_eq (p : Parity) (b : BitVec 12) {ones : Nat} (counted : (List.range' 1 10).countP (fun i => b.getLsbD i) = ones) :
    parityError p b = decide ((p = .even ∧ ones % 2 = 1) ∨ (p = .odd ∧ ones % 2 = 0)) := by
  cases p with
  | none => simp [parityError]
  | even => simp [parityError, onesOdd_eq, counted]
  | odd => obtain zero | one := Nat.mod_two_eq_zero_or_one ones <;> simp [parityError, onesOdd_eq, *]

/-- R76: after a stop bit of 0, a framing error, the receiver waits for CLIN to be high. -/
theorem RxWait.ite_framing (stop : Bool) : (if (!stop) = true then RxWait.high else .edge) = if stop = true then .edge else .high := by
  cases stop <;> rfl

/-! ### CHARACTER and FALSE_START, with nothing due -/

section
variable {s : State}

theorem State.raiseIf_line (x : Bool) (f : Flag) : (s.raiseIf x f).line = s.line := by cases x <;> rfl

theorem State.Quiet.exec_character (h : s.Quiet) (s1 s2 s3 : BitVec 12) : exec (.character s1 s2 s3) s = .next (s.character s1 s2 s3) :=
  congrArg Host.Outcome.next (h.meeting_marksStand fun s p d => s.marked_character p d s1 s2 s3).1

theorem State.Quiet.exec_falseStart (h : s.Quiet) (x y z : Bool) : exec (.falseStart x y z) s = .next (s.falseStart x y z) := by
  have completed : exec (.falseStart x y z) s = .next (s.complete.falseStart x y z) := rfl
  rw [completed, h.complete]

theorem State.character_disabled (off : s.line.settings.enable = false) (s1 s2 s3 : BitVec 12) : s.character s1 s2 s3 = s := by
  simp [State.character, off]

theorem State.falseStart_disabled (off : s.line.settings.enable = false) (x y z : Bool) : s.falseStart x y z = s := by
  simp [State.falseStart, off]

/-- R75: a start bit whose majority is high. -/
theorem State.character_startHigh (enabled : s.line.settings.enable = true) {s1 s2 s3 : BitVec 12}
    (high : (majorityBits s1 s2 s3).getLsbD 0 = true) :
    s.character s1 s2 s3 = (s.raiseIf (samplesDisagree 1 s1 s2 s3) .noise).awaitEdge := by
  simp [State.character, enabled, high]

theorem State.falseStart_high (enabled : s.line.settings.enable = true) {x y z : Bool} (high : majority x y z = true) :
    s.falseStart x y z = (s.raiseIf (x != y || x != z) .noise).awaitEdge := by
  simp [State.falseStart, enabled, high]

/-- R75 to R77: a character whose start bit is low is received, and the receiver waits by its framing. -/
theorem State.character_received (enabled : s.line.settings.enable = true) {s1 s2 s3 : BitVec 12}
    (low : (majorityBits s1 s2 s3).getLsbD 0 = false) :
    s.character s1 s2 s3 =
      let c := lineCharOf s.line.settings.parity (majorityBits s1 s2 s3)
      State.receive { s.raiseIf (samplesDisagree (characterBits s.line.settings.parity) s1 s2 s3) .noise with
        line := { s.line with wait := if c.framing then .high else .edge } } c := by
  simp only [State.character, enabled, low, State.raiseIf_line]
  rfl

/-- R77: a character joins the FIFO as its newest, and the assembler takes the waiting ones. -/
theorem State.receive_takesWaiting (short : s.line.fifo.length < 2) (c : LineChar) :
    let waiting := s.line.fifo ++ [{ c with gap := s.line.gapPending }]
    State.TakesWaiting waiting { s with line := { s.line with gapPending := false, fifo := waiting } } (s.receive c) := by
  intro waiting
  have le : waiting.length ≤ 2 := by simpa [waiting] using Nat.succ_le_of_lt short
  rw [State.receive, if_pos short]
  exact State.drain_takesWaiting (l := waiting) rfl le

/-- R77: with two characters waiting, another is lost. -/
theorem State.receive_overrun (full : s.line.fifo.length = 2) (c : LineChar) :
    s.receive c = State.raise { s with line := { s.line with gapPending := true } } .overrun := by
  rw [State.receive, if_neg (by omega)]

end

/-- Settles O32: a disabled line, a high start bit, and a character received by the room in the FIFO. -/
theorem charactersReachTheAssembler : Obligations.CharactersReachTheAssembler := by
  intro s s1 s2 s3 quiet b p n stop ones wrong noisy run heard waits c waiting
  have ran : run = .next (s.character s1 s2 s3) := quiet.exec_character s1 s2 s3
  have bits : characterBits p = n := characterBits_eq p
  have noise (k : Nat) : samplesDisagree k s1 s2 s3 = noisy k := samplesDisagree_eq k s1 s2 s3
  refine ⟨fun off => ⟨?_, fun x y z => ?_⟩, fun enabled high => ?_, fun enabled x y z high => ?_, fun enabled low => ?_⟩
  · rw [ran, State.character_disabled off]
  · rw [quiet.exec_falseStart, State.falseStart_disabled off]
  · rw [ran, State.character_startHigh enabled high, noise, State.awaitEdge, State.raiseIf_line]
  · rw [quiet.exec_falseStart, State.falseStart_high enabled high, State.awaitEdge, State.raiseIf_line]
  · have judged : { lineCharOf p b with gap := s.line.gapPending } = c := by
      simp only [lineCharOf, bits, parityError_eq p b rfl, c, stop, wrong, ones]
    have waiter : (if (lineCharOf p b).framing then RxWait.high else .edge) = waits := by
      simp only [lineCharOf, bits, RxWait.ite_framing]
      rfl
    have received : s.character s1 s2 s3 = State.receive { heard with line := { s.line with wait := waits } } (lineCharOf p b) := by
      rw [State.character_received enabled low, bits, noise]
      exact congrArg (fun w => State.receive { heard with line := { s.line with wait := w } } (lineCharOf p b)) waiter
    rw [ran, received]
    refine ⟨fun full => ?_, fun short => ⟨_, rfl, ?_⟩⟩
    · rw [State.receive_overrun (s := { heard with line := { s.line with wait := waits } }) full]
    · have takes := State.receive_takesWaiting (s := { heard with line := { s.line with wait := waits } }) short (lineCharOf p b)
      rw [judged] at takes
      exact takes

end Sys2Proof.Machine

/-! ## Complete frames (R84, R85, R89, R91, R95, R97, Table 5.3) -/

namespace Sys2Proof.Machine

/-! ### The checks of a frame (R84, Table 5.3) -/

theorem readApplyAt_isSome {b : Byte} : (readApplyAt b).isSome = true ↔ b.toNat ≤ 2 := by
  have codes : b.toNat ≤ 2 ↔ b = 0#8 ∨ b = 1#8 ∨ b = 2#8 := by bv_omega
  rw [codes, readApplyAt]
  split_ifs <;> simp [*]

theorem readFin_isSome {n : Nat} {b : Byte} : (readFin n b).isSome = true ↔ b.toNat < n := by
  rw [readFin]
  split <;> simp [*]

/-- R84: whether a frame's data pass the checks of its kind. -/
def Tables.FrameValid (t : Tables) (k : FrameKind) (data : List Byte) : Prop :=
  let x := fun (i : Nat) => (data.getD i 0#8).toNat
  match k with
  | .chord => (data.length = 3 ∨ (data.length = 4 ∧ x 3 ≤ 11)) ∧ x 0 ≤ 11 ∧ x 1 ≤ 15 ∧ t.shapes.getD (x 1) 0#12 ≠ 0#12 ∧ x 2 ≤ 2
  | .notes => 2 ≤ data.length ∧ data.length ≤ 8 ∧ x 0 ≤ 2 ∧ ∀ b ∈ data.tail, b.toNat ≤ 127
  | .key => data.length = 2 ∧ x 0 ≤ 11 ∧ x 1 ≤ 7 ∧ (t.scales.getD (x 1) ⟨0#12, .parallel⟩).members ≠ 0#12
  | .clear => data.length = 1 ∧ x 0 ≤ 2
  | .alive => data = []

section
variable (t : Tables)

theorem chordContent_isSome {r k a : Byte} {bass : Option (Fin 12)} :
    (chordContent t r k a bass).isSome = true ↔ r.toNat ≤ 11 ∧ k.toNat ≤ 15 ∧ t.shapes.getD k.toNat 0#12 ≠ 0#12 ∧ a.toNat ≤ 2 := by
  rw [← readApplyAt_isSome, ← Nat.lt_succ_iff (n := 11), ← Nat.lt_succ_iff (n := 15), chordContent]
  by_cases root : r.toNat < 12
  · by_cases slot : k.toNat < 16
    · rw [readFin_of_lt root, readFin_of_lt slot, ← t.shapeFilled_ofNat slot]
      cases readApplyAt a <;> simp [root, slot]
    · simp [readFin_of_le (Nat.le_of_not_lt slot), slot]
  · simp [readFin_of_le (Nat.le_of_not_lt root), root]

/-! Each kind's data, with its checks as `checkFrame` makes them. -/

theorem checkFrame_chord (r k a : Byte) : checkFrame t .chord [r, k, a] = chordContent t r k a none := rfl

theorem checkFrame_chord_bass (r k a b : Byte) :
    checkFrame t .chord [r, k, a, b] = (readFin 12 b).bind fun x => chordContent t r k a (some x) := by
  have checked : checkFrame t .chord [r, k, a, b] = match readFin 12 b with
    | some x => chordContent t r k a (some x)
    | none => none := rfl
  rw [checked]
  cases readFin 12 b <;> rfl

theorem checkFrame_chord_length {data : List Byte} (h : ¬(data.length = 3 ∨ data.length = 4)) : checkFrame t .chord data = none := by
  match data with
  | [] | [_] | [_, _] | _ :: _ :: _ :: _ :: _ :: _ => rfl
  | [_, _, _] | [_, _, _, _] => simp at h

theorem checkFrame_notes (a n : Byte) (rest : List Byte) :
    checkFrame t .notes (a :: n :: rest) = (readApplyAt a).bind fun x =>
      if (∀ b ∈ n :: rest, b.toNat ≤ 127) ∧ rest.length ≤ 6 then some (.notes x ((n :: rest).map BitVec.toNat)) else none := by
  have checked : checkFrame t .notes (a :: n :: rest) = match readApplyAt a with
    | some x =>
      if (n :: rest).all (fun b => b.toNat < 128) && decide (rest.length ≤ 6) then some (.notes x ((n :: rest).map BitVec.toNat)) else none
    | none => none := rfl
  rw [checked]
  cases readApplyAt a with
  | none => rfl
  | some x => simp only [Option.bind_some, Bool.and_eq_true, List.all_eq_true, decide_eq_true_eq, Nat.lt_succ_iff]

theorem checkFrame_notes_length {data : List Byte} (h : data.length < 2) : checkFrame t .notes data = none := by
  match data with
  | [] | [_] => rfl
  | _ :: _ :: _ => simp at h

theorem checkFrame_key (x y : Byte) :
    checkFrame t .key [x, y] = (readFin 12 x).bind fun k => (readFin 8 y).bind fun m => if t.scaleFilled m then some (.key k m) else none := by
  have checked : checkFrame t .key [x, y] = match readFin 12 x, readFin 8 y with
    | some k, some m => if t.scaleFilled m then some (.key k m) else none
    | _, _ => none := rfl
  rw [checked]
  cases readFin 12 x <;> cases readFin 8 y <;> rfl

theorem checkFrame_key_length {data : List Byte} (h : data.length ≠ 2) : checkFrame t .key data = none := by
  match data with
  | [] | [_] | _ :: _ :: _ :: _ => rfl
  | [_, _] => simp at h

theorem checkFrame_clear (a : Byte) : checkFrame t .clear [a] = (readApplyAt a).map fun x => .chord none x := rfl

theorem checkFrame_clear_length {data : List Byte} (h : data.length ≠ 1) : checkFrame t .clear data = none := by
  match data with
  | [] | _ :: _ :: _ => rfl
  | [_] => simp at h

theorem checkFrame_alive : checkFrame t .alive [] = some .alive := rfl

theorem checkFrame_alive_length {data : List Byte} (h : data ≠ []) : checkFrame t .alive data = none := by
  match data with
  | [] => exact absurd rfl h
  | _ :: _ => rfl

/-! Which data pass. -/

theorem checkFrame_chord_isSome (data : List Byte) : (checkFrame t .chord data).isSome = true ↔ t.FrameValid .chord data := by
  match data with
  | [] | [_] | [_, _] | _ :: _ :: _ :: _ :: _ :: _ => simp [checkFrame_chord_length, Tables.FrameValid]
  | [r, k, a] =>
    rw [checkFrame_chord, chordContent_isSome]
    simp [Tables.FrameValid]
  | [r, k, a, b] =>
    rw [checkFrame_chord_bass]
    by_cases bass : b.toNat < 12
    · rw [readFin_of_lt bass, Option.bind_some, chordContent_isSome]
      simp [Tables.FrameValid, Nat.le_of_lt_succ bass]
    · simp [readFin_of_le (Nat.le_of_not_lt bass), Tables.FrameValid, show ¬b.toNat ≤ 11 by omega]

theorem checkFrame_notes_isSome (data : List Byte) : (checkFrame t .notes data).isSome = true ↔ t.FrameValid .notes data := by
  match data with
  | [] | [_] => simp [checkFrame_notes_length, Tables.FrameValid]
  | a :: n :: rest =>
    have valid : t.FrameValid .notes (a :: n :: rest) ↔ a.toNat ≤ 2 ∧ (∀ b ∈ n :: rest, b.toNat ≤ 127) ∧ rest.length ≤ 6 := by
      simp only [Tables.FrameValid, List.getD_cons_zero, List.tail_cons, List.length_cons]
      exact ⟨fun ⟨_, short, code, low⟩ => ⟨code, low, by omega⟩, fun ⟨code, low, short⟩ => ⟨by omega, by omega, code, low⟩⟩
    rw [checkFrame_notes, valid, ← readApplyAt_isSome]
    cases readApplyAt a <;> simp

theorem checkFrame_key_isSome (data : List Byte) : (checkFrame t .key data).isSome = true ↔ t.FrameValid .key data := by
  match data with
  | [] | [_] | _ :: _ :: _ :: _ => simp [checkFrame_key_length, Tables.FrameValid]
  | [x, y] =>
    have valid : t.FrameValid .key [x, y] ↔ x.toNat < 12 ∧ y.toNat < 8 ∧ (t.scales.getD y.toNat ⟨0#12, .parallel⟩).members ≠ 0#12 := by
      simp [Tables.FrameValid, Nat.lt_succ_iff]
    rw [checkFrame_key, valid]
    by_cases tonic : x.toNat < 12
    · by_cases slot : y.toNat < 8
      · rw [readFin_of_lt tonic, readFin_of_lt slot, ← t.scaleFilled_ofNat slot]
        simp [tonic, slot]
      · simp [readFin_of_le (Nat.le_of_not_lt slot), slot]
    · simp [readFin_of_le (Nat.le_of_not_lt tonic), tonic]

theorem checkFrame_clear_isSome (data : List Byte) : (checkFrame t .clear data).isSome = true ↔ t.FrameValid .clear data := by
  match data with
  | [] | _ :: _ :: _ => simp [checkFrame_clear_length, Tables.FrameValid]
  | [a] => simp [checkFrame_clear, Tables.FrameValid, readApplyAt_isSome]

theorem checkFrame_alive_isSome (data : List Byte) : (checkFrame t .alive data).isSome = true ↔ t.FrameValid .alive data := by
  cases data <;> simp [checkFrame_alive, checkFrame_alive_length, Tables.FrameValid]

/-- R84: the checks are those of Table 5.3. -/
theorem checkFrame_isSome (k : FrameKind) (data : List Byte) : (checkFrame t k data).isSome = true ↔ t.FrameValid k data := by
  cases k with
  | chord => exact checkFrame_chord_isSome t data
  | notes => exact checkFrame_notes_isSome t data
  | key => exact checkFrame_key_isSome t data
  | clear => exact checkFrame_clear_isSome t data
  | alive => exact checkFrame_alive_isSome t data

end

/-! ### What a frame that passes makes of the line (R85, R86, R88, R89) -/

/-- R85: the line after a frame that passes. -/
def Line.afterFrame (l : Line) : Line :=
  { l with assembler := .hunt, silence := 0, frameSeen := true, broken := false, cond := .active }

/-- R85, R89: the state after a frame that passes, before its content is acted on. -/
def State.afterFrame (s : State) : State :=
  if s.line.cond = .active then { s with line := s.line.afterFrame }
  else State.publishChanges { s with line := s.line.afterFrame, ctx := { s.ctx with lineCond := .active } } s.ctx false

section
variable (s : State)

/-- R85: what a frame's passing leaves alone. -/
theorem State.afterFrame_eq :
    s.afterFrame.ctx = { s.ctx with lineCond := s.afterFrame.ctx.lineCond } ∧ s.afterFrame.line = s.line.afterFrame ∧
      s.afterFrame.queue = s.queue ∧ s.afterFrame.matcher = s.matcher ∧ s.afterFrame.fault = s.fault ∧ s.afterFrame.tables = s.tables ∧
      (s.ctx.lineCond = s.line.cond → s.afterFrame.ctx.lineCond = .active) := by
  rw [State.afterFrame]
  split
  next active => exact ⟨rfl, rfl, rfl, rfl, rfl, rfl, fun current => current.trans active⟩
  next => simp

/-- R88: after a frame that passes an enabled line is ACTIVE. -/
theorem State.derived_afterFrame (enabled : s.line.settings.enable = true) :
    Line.derived { s.line with assembler := .hunt, silence := 0, frameSeen := true, broken := false } = .active := by
  rw [Line.derived_eq]
  simp [enabled]

theorem State.deriveCondition_afterFrame (enabled : s.line.settings.enable = true) :
    State.deriveCondition { s with line := { s.line with assembler := .hunt, silence := 0, frameSeen := true, broken := false } } = s.afterFrame := by
  rw [State.deriveCondition, s.derived_afterFrame enabled, State.handCondition, State.afterFrame]
  by_cases active : s.line.cond = .active
  · rw [if_pos active.symm, if_pos active, Line.afterFrame, ← active]
  · rw [if_neg (Ne.symm active), if_neg active]
    rfl

theorem State.validFrame_eq (enabled : s.line.settings.enable = true) (f : FrameContent) :
    s.validFrame f = if switchSet s.ctx.switches .chord then s.afterFrame.frameContent f else s.afterFrame := by
  have switches : s.afterFrame.ctx.switches = s.ctx.switches := by rw [s.afterFrame_eq.1]
  rw [State.validFrame, s.deriveCondition_afterFrame enabled, switches]

theorem State.completeFrame_drops {k : FrameKind} {data : List Byte} (bad : ¬s.tables.FrameValid k data) :
    s.completeFrame k data = s.dropFrame := by
  have fails : checkFrame s.tables k data = none := Option.not_isSome_iff_eq_none.mp (mt (checkFrame_isSome _ _ _).mp bad)
  rw [State.completeFrame, fails]

theorem State.completeFrame_passes {k : FrameKind} {data : List Byte} {f : FrameContent} (passes : checkFrame s.tables k data = some f) :
    s.completeFrame k data = s.validFrame f := by
  simp only [State.completeFrame, passes]

/-- R85: with CHORD clear, a frame that passes only moves the line condition. -/
theorem State.completeFrame_unheard (enabled : s.line.settings.enable = true) (unheard : switchSet s.ctx.switches .chord = false) {k : FrameKind}
    {data : List Byte} (valid : s.tables.FrameValid k data) : s.completeFrame k data = s.afterFrame := by
  obtain ⟨f, passes⟩ := Option.isSome_iff_exists.mp ((checkFrame_isSome _ _ _).mpr valid)
  rw [s.completeFrame_passes passes, s.validFrame_eq enabled, if_neg (by simp [unheard])]

/-- R85: with CHORD set, the content of a frame that passes is acted on. -/
theorem State.completeFrame_heard (enabled : s.line.settings.enable = true) (heard : switchSet s.ctx.switches .chord = true) {k : FrameKind}
    {data : List Byte} {f : FrameContent} (passes : checkFrame s.tables k data = some f) : s.completeFrame k data = s.afterFrame.frameContent f := by
  rw [s.completeFrame_passes passes, s.validFrame_eq enabled, if_pos heard]

end

/-! ### The content of the frames that pass (Table 5.3) -/

/-- Table 5.3: the codes of apply-at. -/
def applyAtCodes : List (Byte × ApplyAt) := [(0#8, ApplyAt.now), (1#8, .onset), (2#8, .phrase)]

section
variable {t : Tables}

theorem readApplyAt_code {x : Byte × ApplyAt} (code : x ∈ applyAtCodes) : readApplyAt x.1 = some x.2 := by
  simp only [applyAtCodes, List.mem_cons, List.not_mem_nil, or_false] at code
  obtain rfl | rfl | rfl := code <;> rfl

theorem readFin_ofNat {n : Nat} (le : n ≤ 256) (x : Fin n) : readFin n (BitVec.ofNat 8 x.val) = some x := by
  have value : (BitVec.ofNat 8 x.val).toNat = x.val := Nat.mod_eq_of_lt (by omega)
  simp [readFin, value]

theorem chordContent_of {r : Fin 12} {x : Fin 16} {a : Byte × ApplyAt} (filled : t.shapes.getD x.val 0#12 ≠ 0#12)
    (code : a ∈ applyAtCodes) (bass : Option (Fin 12)) :
    chordContent t (BitVec.ofNat 8 r.val) (BitVec.ofNat 8 x.val) a.1 bass = some (.chord (some ⟨r, x, storedBass r bass⟩) a.2) := by
  have nonempty : t.shapeFilled x = true := by simpa [Tables.shapeFilled] using filled
  simp [chordContent, readFin_ofNat, readApplyAt_code code, nonempty]

theorem checkFrame_notes_of {notes : List Byte} {a : Byte × ApplyAt} (code : a ∈ applyAtCodes)
    (some_note : notes ≠ []) (short : notes.length ≤ 7) (low : ∀ x ∈ notes, x.toNat ≤ 127) :
    checkFrame t .notes (a.1 :: notes) = some (.notes a.2 (notes.map BitVec.toNat)) := by
  obtain ⟨n, rest, rfl⟩ := List.exists_cons_of_ne_nil some_note
  rw [checkFrame_notes, readApplyAt_code code, Option.bind_some, if_pos ⟨low, Nat.le_of_succ_le_succ short⟩]

theorem checkFrame_key_of (x : Fin 12) {y : Fin 8} (filled : (t.scales.getD y.val ⟨0#12, .parallel⟩).members ≠ 0#12) :
    checkFrame t .key [BitVec.ofNat 8 x.val, BitVec.ofNat 8 y.val] = some (.key x y) := by
  have nonempty : t.scaleFilled y = true := by simpa [Tables.scaleFilled] using filled
  simp [checkFrame_key, readFin_ofNat, nonempty]

end

/-- Table 5.3: a frame's chord value and the data that carry it; CLEAR carries "none". -/
theorem checkFrame_chordValue {t : Tables} {value : Option Chord} {data : List Byte} {a : Byte × ApplyAt}
    (code : a ∈ applyAtCodes)
    (carried : (data = [a.1] ∧ value = none) ∨
      ∃ (r : Fin 12) (x : Fin 16), t.shapes.getD x.val 0#12 ≠ 0#12 ∧
        ((data = [BitVec.ofNat 8 r.val, BitVec.ofNat 8 x.val, a.1] ∧ value = some ⟨r, x, none⟩) ∨
          ∃ y : Fin 12, data = [BitVec.ofNat 8 r.val, BitVec.ofNat 8 x.val, a.1, BitVec.ofNat 8 y.val] ∧
            value = some ⟨r, x, if y = r then none else some y⟩)) :
    checkFrame t (if value = none then .clear else .chord) data = some (.chord value a.2) := by
  obtain ⟨rfl, rfl⟩ | ⟨r, x, filled, ⟨rfl, rfl⟩ | ⟨y, rfl, rfl⟩⟩ := carried
  · rw [if_pos rfl, checkFrame_clear, readApplyAt_code code, Option.map_some]
  · rw [if_neg (Option.some_ne_none _), checkFrame_chord, chordContent_of filled code]
    rfl
  · rw [if_neg (Option.some_ne_none _), checkFrame_chord_bass, readFin_ofNat (by decide), Option.bind_some, chordContent_of filled code]
    simp only [storedBass, Option.some.injEq]

/-! ### What the content does (R85, R93, R95) -/

section
variable (s : State)

/-- R85, R93, R97: a chord with apply-at NOW, as one publication. -/
theorem State.chordAt_now (v : Option Chord) :
    s.chordAt v .now = State.publishChanges { s with
      queue := [], matcher := s.matcher.map (fun m => { m with discarded := true })
      ctx := { s.ctx with chord := (s.ctx.chord.write v (.auto .chordline) false).1 } } s.ctx false := rfl

theorem State.autoKey_chordline (v : Fin 12) :
    s.autoKey v .chordline = { s with ctx := { s.ctx with key := (s.ctx.key.write v (.auto .chordline) false).1 } } := by
  simp [State.autoKey, State.writeKey]

/-- R85: a KEY frame's two fields, each arbitrated on its own, as one publication. -/
theorem State.frameContent_key (k : Fin 12) (m : Fin 8) :
    s.frameContent (.key k m) = State.publishChanges { s with ctx := { s.ctx with
      key := (s.ctx.key.write k (.auto .chordline) false).1, scale := (s.ctx.scale.write m (.auto .chordline) false).1 } } s.ctx false := by
  rw [State.frameContent, State.autoKey_chordline]
  rfl

end

/-- Settles O33: the checks, the line condition, and the content by its kind. -/
theorem validFramesAct : Obligations.ValidFramesAct := by
  intro s enabled valid
  refine ⟨fun k data bad => s.completeFrame_drops fun h => bad h, ?_⟩
  intro entered u
  have after : s.afterFrame = u := rfl
  obtain ⟨ctx, line, queue, matcher, fault, tables, cond⟩ := s.afterFrame_eq
  rw [after] at ctx line queue matcher fault tables cond
  clear_value u
  have key : u.ctx.key = s.ctx.key := by rw [ctx]
  have scale : u.ctx.scale = s.ctx.scale := by rw [ctx]
  have chord : u.ctx.chord = s.ctx.chord := by rw [ctx]
  have acts {k : FrameKind} {data : List Byte} {f : FrameContent} (heard : switchSet s.ctx.switches .chord = true)
      (passes : checkFrame s.tables k data = some f) : s.completeFrame k data = u.frameContent f :=
    after ▸ s.completeFrame_heard enabled heard passes
  refine ⟨⟨key, scale, chord, by rw [ctx], line, queue, matcher, fault, cond⟩,
    fun unheard k data ok => (s.completeFrame_unheard enabled unheard (k := k) ok).trans after, fun heard => ⟨?_, ?_, ?_, ?_⟩⟩
  · intro value data at' code carried t
    have acted : t = u.chordAt value at'.2 := acts heard (checkFrame_chordValue code carried)
    refine ⟨fun now => ?_, fun trigger queued => ⟨fun free => ?_, fun full => ?_⟩⟩
    · rw [acted, now, State.chordAt_now, matcher, chord]
    · rw [acted, State.chordAt_queues _ queued, State.appendQueue, queue, if_pos free]
    · rw [acted, State.chordAt_queues _ queued, State.appendQueue, queue, if_neg (Nat.not_lt.mpr full), List.drop_one, State.raise, fault]
      rfl
  · intro x y filled
    rw [acts heard (checkFrame_key_of x filled), State.frameContent_key, key, scale]
  · exact acts heard (checkFrame_alive s.tables)
  · intro notes at' code some_note short low
    rw [acts heard (checkFrame_notes_of code some_note short low), State.frameContent, tables, line]
    rfl

end Sys2Proof.Machine

/-! ## Every command completes and finds the last hop carried out (section 1.5, R107) -/

namespace Sys2Proof.Machine

/-! ### What each completion leaves due (log entry 1) -/

section
variable (s : State)

/-- A completion leaves the marks `d` where it was due and took its own, and where it was not due and its own was absent. -/
theorem State.taken_clears {due : Bool} {t : State} {d : Due} (taken : t.due = d) (absent : due = false → s.due = d) :
    (if due then t else s).due = d := by
  cases due
  · exact absent rfl
  · exact taken

@[simp] theorem State.takeLearn_clears : s.takeLearn.due = { s.due with learn := false } :=
  s.taken_clears (by simp) fun absent => by rw [← absent]

@[simp] theorem State.takeHowl_clears : s.takeHowl.due = { s.due with howl := false } :=
  s.taken_clears (by simp) fun absent => by rw [← absent]

@[simp] theorem State.takeRecovery_clears : s.takeRecovery.due = { s.due with recovery := false } :=
  s.taken_clears (by dsimp only; split <;> simp) fun absent => by rw [← absent]

/-- R29: between them the two note operations take whatever note event is due. -/
@[simp] theorem State.takeNotes_clears : s.takeNoteStart.takeNoteOff.due = { s.due with note := none } := by
  rcases note : s.due.note with _ | n | ⟨m, n⟩ | n
  · rw [State.takeNoteStart_not_due note, State.takeNoteOff_not_due note, ← note]
  · simp [State.takeNoteStart, State.takeNoteOff, Due.start, State.noteStart, note]
  · simp [State.takeNoteStart, State.takeNoteOff, Due.start, State.noteStart, note]
  · simp [State.takeNoteStart, State.takeNoteOff, Due.start, State.noteOff, note]

@[simp] theorem State.takeDwell_clears : s.takeDwell.due = { s.due with dwell := false } :=
  s.taken_clears (by simp) fun absent => by rw [← absent]

@[simp] theorem State.takeSilence_clears : s.takeSilence.due = { s.due with silence := false } :=
  s.taken_clears (by simp) fun absent => by rw [← absent]

@[simp] theorem State.takeFadeStep_clears : s.takeFadeStep.due = { s.due with fadeStep := false } :=
  s.taken_clears (by simp) fun absent => by rw [← absent]

@[simp] theorem State.takeRender_clears : s.takeRender.due = { s.due with render := false } :=
  s.taken_clears (by simp) fun absent => by rw [← absent]

theorem State.completeFirst_clears :
    s.completeFirst.due = { s.due with learn := false, howl := false, recovery := false, note := none } := by
  simp [State.completeFirst]

theorem State.completeLast_clears :
    s.completeLast.due = { s.due with dwell := false, silence := false, fadeStep := false, render := false } := by
  simp [State.completeLast]

/-- R102: an evaluation takes the decay event, and leaves at most a proposal of its own. -/
theorem State.takeEvaluation_leaves : s.takeEvaluation.due = { s.due with decay := false, proposal := s.takeEvaluation.due.proposal } := by
  cases due : s.due.decay
  · rw [State.takeEvaluation_not_due s due, ← due]
  · simp [State.takeEvaluation, due, State.evaluation]

/-- R107: what is carried out but for a proposal leaves at most that proposal due. -/
theorem State.evaluated_clears : s.evaluated.due = { Due.nothing with proposal := s.completeFirst.takeEvaluation.due.proposal } := by
  rw [State.evaluated, State.completeLast_clears, State.takeEvaluation_leaves, State.completeFirst_clears]
  rfl

/-- Log entry 1: after the due completions nothing is due. -/
theorem State.complete_quiet : s.complete.Quiet := by
  rw [State.Quiet, State.complete, State.takeProposal_due, State.evaluated_clears]
  rfl

theorem State.complete_complete : s.complete.complete = s.complete := s.complete_quiet.complete

end

/-! ### With no decay event and no proposal (R107) -/

section
variable {s : State} (no_decay : s.due.decay = false) (no_proposal : s.due.proposal = none)
include no_decay

/-- R107: where no decay event is due, KEYTRACK finds what every command finds. -/
theorem State.completeButDecay_eq_complete : s.completeButDecay = s.complete := by
  rw [State.completeButDecay, State.complete, State.evaluated, State.takeEvaluation_not_due _ (by rw [State.completeFirst_clears]; exact no_decay)]

include no_proposal

/-- R107: with no decay event due and no proposal waiting, the event that would meet one finds nothing due. -/
theorem State.evaluated_eq_complete : s.evaluated = s.complete := by
  rw [State.complete, State.takeProposal_not_due]
  rw [State.evaluated_clears, State.takeEvaluation_not_due _ (by rw [State.completeFirst_clears]; exact no_decay), State.completeFirst_clears]
  exact no_proposal

end

/-! ### The completions and the ports

No completion reads or writes the ports, so a change of the ports may come before it or after it. -/

/-- An operation that commutes with every change of the ports. -/
def IgnoresPorts (f : State → State) : Prop := ∀ s g, f (State.setPorts s g) = (f s).setPorts g

namespace IgnoresPorts

section
variable {f h : State → State}

theorem id : IgnoresPorts fun s => s := fun _ _ => rfl

theorem comp (outer : IgnoresPorts f) (inner : IgnoresPorts h) : IgnoresPorts fun s => f (h s) :=
  fun s g => (congrArg f (inner s g)).trans (outer (h s) g)

/-- An operation with an operand that the state gives, but not its ports. -/
theorem reads {α : Type} {x : State → α} {k : α → State → State} (same : ∀ s g, x (State.setPorts s g) = x s)
    (each : ∀ a, IgnoresPorts (k a)) : IgnoresPorts fun s => k (x s) s :=
  fun s g => (congrArg (fun a => k a (s.setPorts g)) (same s g)).trans (each (x s) s g)

/-- A choice on what is not of the ports. -/
theorem ite {c : State → Prop} [∀ s, Decidable (c s)] (same : ∀ s g, c (State.setPorts s g) ↔ c s) (yes : IgnoresPorts f)
    (no : IgnoresPorts h) : IgnoresPorts fun s => if c s then f s else h s := by
  intro s g
  rw [apply_ite (fun t : State => t.setPorts g), ← yes, ← no]
  exact if_congr (same s g) rfl rfl

/-- An operation that goes by an item of the state that is not of the ports. -/
theorem of_item {α : Type} {x : State → α} (same : ∀ s g, x (State.setPorts s g) = x s)
    (each : ∀ a, ∃ k, IgnoresPorts k ∧ ∀ s, x s = a → f s = k s) : IgnoresPorts f := by
  intro s g
  obtain ⟨k, ignores, acts⟩ := each (x s)
  rw [acts s rfl, acts _ (same s g), ignores]

end

/-! Publications and field writes (R54, R70, R96) -/

theorem publishChanges (before : Context) (table : Bool) : IgnoresPorts fun s => s.publishChanges before table :=
  .ite (c := fun s => (before.changes s.ctx table).any = true) (fun _ _ => Iff.rfl) (fun _ _ => rfl) .id

theorem autoKey (v : Fin 12) (a : Auto) : IgnoresPorts fun s => s.autoKey v a :=
  .ite (c := fun s => decide ((s.ctx.key.write v (.auto a) false).2 = .applied ∧ Source.auto a = .auto .keytrk) = true)
    (fun _ _ => Iff.rfl) (fun _ _ => rfl) (fun _ _ => rfl)

theorem setSwitches (w : BitVec 8) : IgnoresPorts fun s => s.setSwitches w :=
  .ite (c := fun s => (switchSet s.ctx.switches .chord && !switchSet w .chord) = true) (fun _ _ => Iff.rfl) (fun _ _ => rfl) (fun _ _ => rfl)

theorem takeHead (t : Trigger) : IgnoresPorts fun s => s.takeHead t :=
  .of_item (x := fun s => queueHead s.queue t) (fun _ _ => rfl) fun
    | none => ⟨_, .id, fun s head => by simp only [State.takeHead, head]⟩
    | some v => ⟨fun s => State.autoChord { s with queue := s.queue.drop 1 } v .chordline, fun _ _ => rfl,
        fun s head => by simp only [State.takeHead, head]⟩

/-! Cue steps (R149, R153, R155) -/

theorem writeStepFields (c : CueStep) : IgnoresPorts fun s => s.writeStepFields c := by
  intro s g
  rcases key : c.key with _ | k <;> rcases scale : c.scale with _ | m <;> rcases chord : c.chord with _ | v <;>
    simp only [State.writeStepFields, key, scale, chord, autoKey _ _ s g] <;> rfl

theorem writeStepSwitches (c : CueStep) : IgnoresPorts fun s => s.writeStepSwitches c :=
  .reads (x := fun s => cueSwitchWord s.ctx.switches s.ctx.lockMask c.setMask c.clearMask) (fun _ _ => rfl) setSwitches

theorem stageStep (c : CueStep) (h : Handing) : IgnoresPorts fun s => s.stageStep c h := by
  intro s g
  simp only [State.stageStep]
  induction c.bindings generalizing s with
  | nil => rfl
  | cons b l ih => exact ih (s.stageOn b.1 ⟨s.tables.plans.getD b.2.val planOff, b.2⟩ h)

theorem enterStep (k : Fin 64) : IgnoresPorts fun s => s.enterStep k := by
  refine .reads (x := fun s => (s.tables.cueStep k, s.ctx))
    (k := fun x s => ((((s.writeStepFields x.1).writeStepSwitches x.1).publishChanges x.2 false).stageStep x.1 .next).retest.setCursor k x.1)
    (fun _ _ => rfl) fun (c, before) => ?_
  have written := (writeStepSwitches c).comp (writeStepFields c)
  exact .comp (f := fun s => s.retest.setCursor k c) (fun _ _ => rfl) ((stageStep c .next).comp ((publishChanges before false).comp written))

theorem enterStepHeld (k : Fin 64) : IgnoresPorts fun s => s.enterStepHeld k := by
  refine .reads (x := fun s => s.tables.cueStep k) (k := fun c s => (((s.writeStepFields c).writeStepSwitches c).stageStep c .held).setCursor k c)
    (fun _ _ => rfl) fun c => ?_
  exact .comp (f := fun s => s.setCursor k c) (fun _ _ => rfl) ((stageStep c .held).comp ((writeStepSwitches c).comp (writeStepFields c)))

theorem advance : IgnoresPorts State.advance := by
  intro s g
  rcases cursor : s.cue.cursor with _ | k
  · simp only [State.advance, State.setPorts, cursor]
  · rcases next : s.tables.nextStep k with _ | j
    · simp only [State.advance, State.setPorts, cursor, next]
      rfl
    · simp only [State.advance, State.setPorts, cursor, next]
      exact enterStep j s g

theorem advanceHeld : IgnoresPorts State.advanceHeld := by
  intro s g
  rcases cursor : s.cue.cursor with _ | k
  · simp only [State.advanceHeld, State.setPorts, cursor]
  · rcases next : s.tables.nextStep k with _ | j
    · simp only [State.advanceHeld, State.setPorts, cursor, next]
      rfl
    · simp only [State.advanceHeld, State.setPorts, cursor, next]
      exact congrArg (fun t : State => { t with cue := t.cue.countOnset }) (enterStepHeld j s g)

/-- R153: a note start counts, or at the count advances the list. -/
theorem countOnset (n : Nat) : IgnoresPorts fun s =>
    if s.cue.cursor.isSome && s.cue.running then
      if s.cue.counter < n then { s with cue := { s.cue with counter := s.cue.counter + 1 } } else s.advanceHeld
    else s :=
  .ite (fun _ _ => Iff.rfl) (.ite (fun _ _ => Iff.rfl) (fun _ _ => rfl) advanceHeld) .id

theorem cueOnset : IgnoresPorts State.cueOnset :=
  .of_item (x := fun s => s.cue.entered) (fun _ _ => rfl) fun
    | .onsets n => ⟨_, countOnset n, fun s entered => by simp only [State.cueOnset, entered]⟩
    | .manual => ⟨_, .id, fun s entered => by simp only [State.cueOnset, entered]⟩
    | .dwell _ => ⟨_, .id, fun s entered => by simp only [State.cueOnset, entered]⟩

/-! Note operations (R71, R72) -/

theorem noteStart (k : PublicationKind) : IgnoresPorts fun s => s.noteStart k := by
  intro s g
  have headed := takeHead .onset s g
  simp only at headed
  simp only [State.noteStart_eq, headed, cueOnset _ g]
  rfl

theorem noteOff (n : Nat) : IgnoresPorts fun s => s.noteOff n :=
  .reads (x := fun s => s.ctx) (k := fun before s => (s.takeHead .phrase).noteTaken.publishNote (.noteOff n) before) (fun _ _ => rfl) fun before =>
    .comp (f := fun s => s.noteTaken.publishNote (.noteOff n) before) (fun _ _ => rfl) (takeHead .phrase)

/-! Fault causes (R173, R176) -/

theorem causeAppears (k : Cause) : IgnoresPorts fun s => s.causeAppears k :=
  .of_item (x := fun s => s.fault.output) (fun _ _ => rfl) fun
    | .run => ⟨fun s => State.raise { s with fault := { s.fault with output := .degraded k } } .fault, fun _ _ => rfl,
        fun s output => by simp only [State.causeAppears, output]⟩
    | .degraded j => ⟨_, .ite (c := fun _ => j = k) (fun _ _ => Iff.rfl) .id (h := State.enterBypass) fun _ _ => rfl,
        fun s output => by simp only [State.causeAppears, output]⟩
    | .recovering => ⟨State.enterBypass, fun _ _ => rfl, fun s output => by simp only [State.causeAppears, output]⟩
    | .bypass => ⟨_, .id, fun s output => by simp only [State.causeAppears, output]⟩

theorem howlAppears : IgnoresPorts State.howlAppears :=
  .ite (c := fun s => s.fault.causeHowl = true) (fun _ _ => Iff.rfl) .id
    (.comp (f := fun s => s.causeAppears .howl) (h := fun s => { s with fault := { s.fault with causeHowl := true } }) (causeAppears .howl)
      fun _ _ => rfl)

/-! The line condition (R89, R90) -/

theorem breakAction : IgnoresPorts State.breakAction :=
  .ite (c := fun s => s.line.settings.breakAction = .clear ∧ s.ctx.chord.owner = .source (.auto .chordline)) (fun _ _ => Iff.rfl)
    (fun _ _ => rfl) .id

theorem lossActions (c : LineCondition) : IgnoresPorts fun s => s.lossActions c := by
  cases c
  case lost => exact .comp (h := fun s => s.flushQueue.raise .lineLost) breakAction fun _ _ => rfl
  case broken => exact .comp (h := State.flushQueue) breakAction fun _ _ => rfl
  all_goals exact .id

theorem handCondition (c : LineCondition) : IgnoresPorts fun s => s.handCondition c := by
  refine .ite (c := fun s => c = s.line.cond) (fun _ _ => Iff.rfl) .id (.reads (x := fun s => s.ctx)
    (k := fun before s => State.publishChanges
      { s.lossActions c with line := { (s.lossActions c).line with cond := c }, ctx := { (s.lossActions c).ctx with lineCond := c } } before false)
    (fun _ _ => rfl) fun before => ?_)
  exact (publishChanges before false).comp (.comp (f := fun t => { t with line := { t.line with cond := c }, ctx := { t.ctx with lineCond := c } })
    (fun _ _ => rfl) (lossActions c))

/-! The completions -/

theorem completeLearn : IgnoresPorts State.completeLearn := by
  intro s g
  rcases learn : s.tracker.learn with _ | l
  · rw [State.completeLearn_none learn, State.completeLearn_none (s := s.setPorts g) learn]
  · by_cases wide : l.smallest + 12 < l.largest
    · rw [State.completeLearn_fails learn wide, State.completeLearn_fails (s := s.setPorts g) learn wide]
      rfl
    · rw [State.completeLearn_done learn wide, State.completeLearn_done (s := s.setPorts g) learn wide]
      rfl

/-- A completion, which acts where it is due and has its mark cleared first. -/
theorem taken {due : Due → Bool} {clear : State → State} {f : State → State} (clears : IgnoresPorts clear) (acts : IgnoresPorts f) :
    IgnoresPorts fun s => if due s.due then f (clear s) else s :=
  .ite (fun _ _ => Iff.rfl) (acts.comp clears) .id

theorem takeLearn : IgnoresPorts State.takeLearn := .taken (due := Due.learn) (fun _ _ => rfl) completeLearn

theorem takeHowl : IgnoresPorts State.takeHowl :=
  .taken (due := Due.howl) (f := fun s => s.howlAppears.retest) (fun _ _ => rfl) (.comp (f := State.retest) (fun _ _ => rfl) howlAppears)

theorem takeRecovery : IgnoresPorts State.takeRecovery :=
  .taken (due := Due.recovery) (f := fun s => if s.fault.output = .recovering then s.enterRun else s) (fun _ _ => rfl)
    (.ite (fun _ _ => Iff.rfl) (fun _ _ => rfl) .id)

theorem takeNoteStart : IgnoresPorts State.takeNoteStart :=
  .of_item (x := fun s => s.due.start) (fun _ _ => rfl) fun
    | none => ⟨_, .id, fun s start => by simp only [State.takeNoteStart, start]⟩
    | some k => ⟨_, noteStart k, fun s => s.takeNoteStart_due⟩

theorem takeNoteOff : IgnoresPorts State.takeNoteOff :=
  .of_item (x := fun s => s.due.note) (fun _ _ => rfl) fun
    | some (.noteOff n) => ⟨_, noteOff n, fun s note => by simp only [State.takeNoteOff, note]⟩
    | some (.noteOn _) => ⟨_, .id, fun s note => by simp only [State.takeNoteOff, note]⟩
    | some (.noteChange _ _) => ⟨_, .id, fun s note => by simp only [State.takeNoteOff, note]⟩
    | none => ⟨_, .id, fun s => State.takeNoteOff_not_due⟩

theorem takeEvaluation : IgnoresPorts State.takeEvaluation := .taken (due := Due.decay) .id fun _ _ => rfl

theorem takeDwell : IgnoresPorts State.takeDwell := .taken (due := Due.dwell) (fun _ _ => rfl) advance

theorem takeSilence : IgnoresPorts State.takeSilence :=
  .taken (due := Due.silence) (fun _ _ => rfl) (.reads (x := fun s => s.line.derived) (fun _ _ => rfl) handCondition)

theorem takeFadeStep : IgnoresPorts State.takeFadeStep := .taken (due := Due.fadeStep) (fun _ _ => rfl) fun _ _ => rfl

theorem takeRender : IgnoresPorts State.takeRender := .taken (due := Due.render) (fun _ _ => rfl) fun _ _ => rfl

/-- R103: a proposal `k`, waiting no longer, reaches the context unit. -/
theorem proposal (k : Fin 12) :
    IgnoresPorts fun s => (State.autoKey { s with due := { s.due with proposal := none } } k .keytrk).publishChanges s.ctx false :=
  .reads (x := fun s => s.ctx)
    (k := fun before s => (State.autoKey { s with due := { s.due with proposal := none } } k .keytrk).publishChanges before false)
    (fun _ _ => rfl) fun before => (publishChanges before false).comp ((autoKey k .keytrk).comp fun _ _ => rfl)

theorem takeProposal : IgnoresPorts State.takeProposal :=
  .of_item (x := fun s => s.due.proposal) (fun _ _ => rfl) fun
    | none => ⟨_, .id, fun s => State.takeProposal_not_due⟩
    | some k => ⟨_, proposal k, fun s waits => by simp only [State.takeProposal, waits]⟩

theorem completeFirst : IgnoresPorts State.completeFirst :=
  takeNoteOff.comp (takeNoteStart.comp (takeRecovery.comp (takeHowl.comp takeLearn)))

theorem completeLast : IgnoresPorts State.completeLast := takeRender.comp (takeFadeStep.comp (takeSilence.comp takeDwell))

/-- The completions that are due act alike before and after a change of the ports. -/
theorem complete : IgnoresPorts State.complete := takeProposal.comp (completeLast.comp (takeEvaluation.comp completeFirst))

end IgnoresPorts

/-! ### The queue of waiting commands (log entry 7) -/

section
variable {s : State}

theorem State.decoded_pending {src : Manual} {c : Cmd} {body : State → Answer} (kept : ∀ t, (body t).1.pending = t.pending) :
    (s.decoded src c body).pending = s.pending := by
  unfold State.decoded
  split <;> simp [kept]

theorem State.command_pending {src : Manual} {c : Cmd} {body : State → Answer} (kept : ∀ t, (body t).1.pending = t.pending) :
    (s.command src c body).pending = s.pending := by
  rw [State.command, State.decoded_pending kept]
  simp

theorem State.meeting_pending {f : State → State} (kept : ∀ t, (f t).pending = t.pending) : (s.meeting f).pending = s.pending := by
  simp [State.meeting, kept]

theorem State.commandTracking_pending {src : Manual} {c : Cmd} {body : State → Answer} (kept : ∀ t, (body t).1.pending = t.pending) :
    (s.commandTracking src c body).pending = s.pending := by
  rw [State.commandTracking, State.decoded_pending kept]
  simp

/-- R167: no record touches the queue, and what is no record is routed nowhere. -/
theorem State.route_pending (i : Instr) : (s.route i).pending = s.pending := by
  cases i
  case setkey | setscale | unpin | cuenext | cueprev | cuegoto | loadscale =>
    exact State.meeting_pending fun t => State.decoded_pending fun u => by simp
  case keytrack | keytrackClear => exact State.commandTracking_pending fun t => by simp
  case powerOn | frameSync | frameAbsence | measurement | fadeStepCount | grainBoundary | settleComplete | releaseComplete | learnComplete |
      decayEvent | dwellExpiry | howlDeclared | recoveryComplete | character | matchEnd | lineBreak | silenceThreshold | timeOut | fetch |
      commandTransaction | refusedTransaction | stageWrite | stageRead | falseStart | selectAssertion | startCondition => rfl
  all_goals exact State.command_pending fun t => by simp

theorem State.judge_pending (src : Manual) (limit : Nat) (bytes : List Byte) : (s.judge src limit bytes).pending = s.pending := by
  obtain ⟨_, e⟩ | ⟨code, args, _, _, e⟩ | ⟨code, rest, _, e⟩ := s.judge_cases src limit bytes <;> rw [e]
  · simp
  · unfold State.record
    split
    · exact State.route_pending _
    · simp
  · simp

@[simp] theorem State.setPorts_pending (g : Ports → Ports) : (s.setPorts g).pending = s.pending := rfl

@[simp] theorem State.setupFetch_pending (sel : Select) (n : Nat) : (s.setupFetch sel n).pending = s.pending := by
  unfold State.setupFetch
  split <;> simp

theorem State.setupCommand_pending (sel : Select) (bytes : List Byte) : (s.setupCommand sel bytes).pending = s.pending := by
  unfold State.setupCommand
  split
  · simp
  split
  · exact State.judge_pending ..
  · simp

theorem State.stageRecord_pending (w : WriteTransfer) : (s.stageRecord w).pending = s.pending := by
  unfold State.stageRecord
  split
  · exact State.judge_pending ..
  · simp

@[simp] theorem State.stageReply_pending (r : ReadTransfer) : (s.stageReply r).pending = s.pending := by
  unfold State.stageReply
  split <;> rfl

@[simp] theorem State.stageTimeOut_pending : s.stageTimeOut.pending = s.pending := by
  unfold State.stageTimeOut
  split <;> simp

/-- Section 1.5: every command has a next state, with the same queue. -/
theorem exec_completes (c : Instr) (s : State) : ∃ t, exec c s = .next t ∧ t.pending = s.pending := by
  have routed := State.route_pending (s := s) c
  cases c <;> refine ⟨_, rfl, ?_⟩
  case powerOn => rfl
  case character => exact State.meeting_pending fun t => by simp
  case matchEnd => exact State.meeting_pending fun t => by simp
  case commandTransaction => exact State.setupCommand_pending ..
  case stageWrite => exact State.stageRecord_pending ..
  case frameSync | frameAbsence | measurement | fadeStepCount | grainBoundary | settleComplete | releaseComplete | learnComplete |
      decayEvent | dwellExpiry | howlDeclared | recoveryComplete | lineBreak | silenceThreshold | timeOut | fetch |
      refusedTransaction | stageRead | falseStart | selectAssertion | startCondition => simp
  all_goals exact routed

end

/-! ### What the decoder reads is a record (R167) -/

theorem decodeCueload_isRecord {src : Manual} {args : List Byte} {i : Instr} (h : decodeCueload src args = .command i) :
    (encodeArgs i).isSome = true := by
  unfold decodeCueload at h
  (repeat' split at h) <;> cases h
  rfl

/-- Table 10.1: by the command's form or action where it has one, and otherwise by the number of its arguments. -/
theorem decodeArgs_isRecord {src : Manual} {c : Cmd} {args : List Byte} {i : Instr} (length : args.length ∈ c.lengths)
    (h : decodeArgs src c args = .command i) : (encodeArgs i).isSome = true := by
  cases c
  case cueload => exact decodeCueload_isRecord h
  all_goals rw [Cmd.lengths, List.mem_singleton] at length
  case switches =>
    match args, length with
    | [form, arg], _ =>
      change (if form = 0#8 then _ else if form = 1#8 then _ else if form = 2#8 then _ else _) = _ at h
      (repeat' split at h) <;> cases h <;> rfl
  case rate =>
    match args, length with
    | [_, _, _, _, _, _, _, _, action], _ =>
      change (if action = 0#8 then _ else if action = 1#8 then _ else _) = _ at h
      (repeat' split at h) <;> cases h <;> rfl
  case keytrack =>
    match args, length with
    | [_, _, _, _, _, action], _ =>
      change (if action = 0#8 then _ else if action = 1#8 then _ else _) = _ at h
      (repeat' split at h) <;> cases h <;> rfl
  case hush | resume | cuenext | cueprev | cuestop | clearfault | restart | readstatus | readcontext | readkeytrk =>
    match args, length with
    | [], _ => cases h; rfl
  case unpin | locksw | cuegoto | learn | twowire | readvoice =>
    match args, length with
    | [_], _ => cases h; rfl
  case setkey | setscale | cuelen | ackflags | readcue | readtable =>
    match args, length with
    | [_, _], _ => cases h; rfl
  case bind | loadshape | howl =>
    match args, length with
    | [_, _, _], _ => cases h; rfl
  case loadscale =>
    match args, length with
    | [_, _, _, _], _ => cases h; rfl
  case setchord | chordline =>
    match args, length with
    | [_, _, _, _, _, _], _ => cases h; rfl
  case tracker =>
    match args, length with
    | [_, _, _, _, _, _, _, _, _, _], _ => cases h; rfl
  case loadplan =>
    match args, length with
    | [_, _, _, _, _, _, _, _, _, _, _], _ => cases h; rfl

/-- R167: what the decoder hands to a block travels as a record. -/
theorem decodeRecord_isRecord {src : Manual} {code : Byte} {args : List Byte} {i : Instr} (h : decodeRecord src code args = .command i) :
    (encodeArgs i).isSome = true := by
  unfold decodeRecord at h
  split at h
  · cases h
  · split at h
    · cases h
    · split at h
      · cases h
      next length => exact decodeArgs_isRecord (not_not.mp length) h

/-! ### Acting after the completions (log entries 1 and 26) -/

/-- R107, R167: the three ways in which a record that is routed passes the decoder; the last two are those that may meet a decay
event. -/
theorem State.route_forms {i : Instr} (record : (encodeArgs i).isSome = true) : ∃ src c body,
    (∀ s : State, s.route i = s.command src c body) ∨ (i.meetsDecay = true ∧
      ((∀ s : State, s.route i = s.commandMeeting src c body) ∨ ∀ s : State, s.route i = s.commandTracking src c body)) := by
  cases i
  case powerOn | frameSync | frameAbsence | measurement | fadeStepCount | grainBoundary | settleComplete | releaseComplete | learnComplete |
      decayEvent | dwellExpiry | howlDeclared | recoveryComplete | character | matchEnd | lineBreak | silenceThreshold | timeOut | fetch |
      commandTransaction | refusedTransaction | stageWrite | stageRead | falseStart | selectAssertion | startCondition => cases record
  case setkey | setscale | unpin | cuenext | cueprev | cuegoto | loadscale =>
    exact ⟨_, _, _, .inr ⟨rfl, .inl fun s => by rw [State.route]; rfl⟩⟩
  case keytrack | keytrackClear => exact ⟨_, _, _, .inr ⟨rfl, .inr fun s => by rw [State.route]; rfl⟩⟩
  all_goals exact ⟨_, _, _, .inl fun s => by rw [State.route]; rfl⟩

section
variable (s : State) (src : Manual) (c : Cmd) (body : State → Answer)

/-- R167: a record finds the last hop whole. -/
theorem State.command_complete : s.command src c body = s.complete.command src c body := by
  rw [State.command, State.command, State.complete_complete]

/-- R107: with no decay event to meet, an event that might have met one finds the last hop whole. -/
theorem State.meeting_complete (no_decay : s.due.decay = false) (no_proposal : s.due.proposal = none) (f : State → State) :
    s.meeting f = s.complete.meeting f := by
  rw [State.meeting, State.meeting, State.evaluated_eq_complete no_decay no_proposal, s.complete_quiet.evaluated]

/-- R107: with no decay event due, KEYTRACK finds the last hop whole. -/
theorem State.commandTracking_complete (no_decay : s.due.decay = false) :
    s.commandTracking src c body = s.complete.commandTracking src c body := by
  rw [State.commandTracking, State.commandTracking, State.completeButDecay_eq_complete no_decay, s.complete_quiet.completeButDecay]

end

/-- An effect that is the same from a state with completions due and from the state in which they have been carried out; where
it may meet a decay event, provided that none is due and no proposal of one waits. -/
def CompletesFirst (meets : Bool) (f : State → State) : Prop :=
  ∀ s : State, (s.due.decay = true ∨ s.due.proposal ≠ none → meets = false) → f s = f s.complete

namespace CompletesFirst

variable {meets : Bool} {f h : State → State}

theorem after (f : State → State) : CompletesFirst meets fun s => f s.complete :=
  fun s _ => congrArg f s.complete_complete.symm

/-- R107: an effect that may meet a decay event, with none to meet. -/
theorem of_none_due (same : ∀ s : State, s.due.decay = false → s.due.proposal = none → f s = f s.complete) : CompletesFirst true f := by
  intro s unmet
  have none_due : ¬(s.due.decay = true ∨ s.due.proposal ≠ none) := fun due => Bool.noConfusion (unmet due)
  rw [not_or, Bool.not_eq_true, not_not] at none_due
  obtain ⟨no_decay, no_proposal⟩ := none_due
  exact same s no_decay no_proposal

theorem meeting (f : State → State) : CompletesFirst true fun s => s.meeting f :=
  of_none_due fun s no_decay no_proposal => s.meeting_complete no_decay no_proposal f

theorem ite {c : State → Prop} [∀ s, Decidable (c s)] (same : ∀ s, c (State.complete s) ↔ c s) (yes : CompletesFirst meets f)
    (no : CompletesFirst meets h) : CompletesFirst meets fun s => if c s then f s else h s :=
  fun s unmet => if_congr (same s).symm (yes s unmet) (no s unmet)

/-- A change of the ports before an effect stands in no completion's way. -/
theorem setPorts (first : CompletesFirst meets f) (g : Ports → Ports) : CompletesFirst meets fun s => f (s.setPorts g) :=
  fun s unmet => (first (s.setPorts g) unmet).trans (congrArg f (IgnoresPorts.complete s g))

/-- R167: a record that is routed to its block. -/
theorem route {i : Instr} (record : (encodeArgs i).isSome = true) : CompletesFirst i.meetsDecay fun s => s.route i := by
  obtain ⟨src, c, body, whole | ⟨meets, meeting | tracking⟩⟩ := State.route_forms record
  · simp only [whole]
    exact fun s _ => s.command_complete src c body
  · simp only [meeting, meets]
    exact CompletesFirst.meeting fun t => t.decoded src c body
  · simp only [tracking, meets]
    exact of_none_due fun s no_decay _ => s.commandTracking_complete src c body no_decay

/-- R167: the bytes of a record, which may be those of a command that meets a decay event. -/
theorem record (src : Manual) (code : Byte) (args : List Byte) : CompletesFirst true fun s => s.record src code args := by
  cases decoded : decodeRecord src code args with
  | command i =>
    simp only [State.record, decoded]
    exact fun s unmet => route (decodeRecord_isRecord decoded) s fun due => Bool.noConfusion (unmet due)
  | refused r =>
    simp only [State.record, decoded]
    exact after fun s => s.reply src ⟨code, r, []⟩

theorem judge (src : Manual) (limit : Nat) : ∀ bytes : List Byte, CompletesFirst true fun s => s.judge src limit bytes
  | [] => after fun s => s
  | [code] => after fun s => s.reply src ⟨code, .format, []⟩
  | code :: n :: args => ite (c := fun _ => args.length = n.toNat ∧ args.length + 2 ≤ limit) (fun _ => Iff.rfl) (record src code args)
      (after fun s => s.reply src ⟨code, .format, []⟩)

theorem setupCommand (sel : Select) (bytes : List Byte) : CompletesFirst true fun s => s.setupCommand sel bytes :=
  ite (c := fun _ => bytes.head? = some 0#8) (fun _ => Iff.rfl) (after fun s => s.setupFetch sel (bytes.length - 1))
    (ite (c := fun s => s.ports.holder = some sel) (fun s => by simp)
      ((judge (selectSource sel) 32 bytes).setPorts fun p => { p with holder := none, spdo := List.replicate bytes.length 0#8 })
      (after fun s => s.releaseRefused sel))

theorem stageRecord (w : WriteTransfer) : CompletesFirst true fun s => s.stageRecord w :=
  ite (c := fun s => s.ports.transfer = .write) (fun s => by simp)
    ((judge .stage 16 w.bytes).setPorts fun p => { p.endTransfer w.ending with acks := acknowledges w.bytes.length }) (after fun s => s)

end CompletesFirst

/-- Log entries 1 and 26: a command that is no completion, but where it meets a decay event or its proposal. -/
theorem exec_completesFirst {c : Instr} (command : c.isCompletion = false) {s : State}
    (unmet : s.due.decay = true ∨ s.due.proposal ≠ none → c.meetsDecay = false) : exec c s = exec c s.complete := by
  have routed (record : (encodeArgs c).isSome = true) := CompletesFirst.route record s unmet
  cases c
  case fadeStepCount | grainBoundary | settleComplete | releaseComplete | learnComplete | decayEvent | dwellExpiry | howlDeclared |
      recoveryComplete | silenceThreshold => cases command
  -- Power-on keeps the queue and the draws alone, which no completion changes.
  case powerOn sa => simp [exec, execPowerOn]
  case character s1 s2 s3 => exact congrArg Host.Outcome.next (CompletesFirst.meeting (fun t => t.character s1 s2 s3) s unmet)
  case matchEnd => exact congrArg Host.Outcome.next (CompletesFirst.meeting State.matchEnd s unmet)
  case commandTransaction sel bytes => exact congrArg Host.Outcome.next (CompletesFirst.setupCommand sel bytes s unmet)
  case stageWrite w => exact congrArg Host.Outcome.next (CompletesFirst.stageRecord w s unmet)
  -- The other events act on the completed state, and so do the two line forms that travel as no record of their own.
  case frameSync | frameAbsence | measurement | lineBreak | falseStart | timeOut | fetch | refusedTransaction | stageRead | selectAssertion |
      startCondition =>
    simp only [exec, execFrameSync, execFrameAbsence, execMeasurement, execLineBreak, execFalseStart, execTimeOut, execFetch,
      execRefusedTransaction, execStageRead, execSelectAssertion, execStartCondition, State.complete_complete]
  case lineDisable src b => exact congrArg Host.Outcome.next (s.command_complete src .chordline _)
  case lineEnable src b => exact congrArg Host.Outcome.next (s.command_complete src .chordline _)
  all_goals exact congrArg Host.Outcome.next (routed rfl)

/-- Settles O2: each command's next state and queue, and the completions before every command but those that R107 lets meet a
decay event. -/
theorem everyCommandCompletes : Obligations.EveryCommandCompletes :=
  ⟨exec_completes, State.complete_quiet, fun _ quiet => quiet.complete, fun _ _ command unmet => exec_completesFirst command unmet⟩

end Sys2Proof.Machine

/-! ## BIND (R111 to R113) -/

namespace Sys2Proof.Machine

/-! ### The adoption field, and a staging at once (R111, R112) -/

theorem readAdoption_of_le {b : Byte} (h : b.toNat ≤ 1) : readAdoption b = some (decide (b = 1#8)) := by
  have codes : b = 0#8 ∨ b = 1#8 := by bv_omega
  obtain rfl | rfl := codes <;> rfl

theorem readAdoption_of_lt {b : Byte} (h : 1 < b.toNat) : readAdoption b = none := by
  obtain ⟨zero, one⟩ := Byte.above_one h
  rw [readAdoption, if_neg zero, if_neg one]

section
variable {v : Voice} {e : Surroundings} {i : Fin 4} {p : Staged} {now : Bool}

/-- R112: an IMMEDIATE staging, and any staging on an IDLE voice, is adopted at once. -/
theorem Voice.stage_now (h : now = true ∨ v.ren.state = .idle) : v.Adopts e i p (v.stage e i p (.ofAdoption now)) := by
  cases now with
  | true => exact Voice.adopt_adopts (v := { v with res := { v.res with staged := some p } }) rfl rfl p
  | false => exact (v.stage_next e i p).1 (by simpa using h)

/-- R112: a NEXT staging waits on a voice that is not IDLE. -/
theorem Voice.stage_waits (h : ¬(now = true ∨ v.ren.state = .idle)) :
    v.stage e i p (.ofAdoption now) = { v with res := { v.res with staged := some p } } := by
  obtain ⟨next, sounds⟩ := not_or.mp h
  rw [Bool.not_eq_true] at next
  rw [next]
  exact (v.stage_next e i p).2 sounds

/-! ### The has-target mark of the renderer (R127, R130) -/

@[simp] theorem RenderRecord.formShift_hasTarget (r : RenderRecord) (follow : Bool) (dev : Int) :
    (r.formShift follow dev).hasTarget = r.hasTarget := by
  cases interval : r.interval <;> simp [RenderRecord.formShift, interval, RenderRecord.request]

theorem RenderRecord.takeGoal_hasTarget (r : RenderRecord) (plan : Plan) (dev g : Int) : (r.takeGoal plan dev g).hasTarget = true := by
  cases interval : r.interval with
  | none => simp [RenderRecord.takeGoal, interval]
  | some x =>
    simp only [RenderRecord.takeGoal, interval]
    split
    · simp
    · split <;> rfl

@[simp] theorem RenderRecord.retest_hasTarget (r : RenderRecord) (c : Bool) : (r.retest c).hasTarget = r.hasTarget := by
  obtain ⟨_, _, e⟩ | ⟨_, _, e⟩ | ⟨_, _, e⟩ | e := r.retest_cases c <;> rw [e]
  cases pending : r.pending <;> simp [RenderRecord.leaveIdle, RenderRecord.adoptShift, pending]

/-- R137: a sound condition test leaves the resolver's record and the has-target mark. -/
theorem State.Tests.res_hasTarget {s : State} {w : Voice} (h : s.Tests v w) : w.res = v.res ∧ w.ren.hasTarget = v.ren.hasTarget := by
  rw [show w = { v with ren := v.ren.retest _ } from h]
  exact ⟨rfl, RenderRecord.retest_hasTarget _ _⟩

/-- R127, R130: where a goal stands under a has-target mark, a goal formed anew leaves the mark set. -/
theorem Voice.handed_hasTarget (marked : v.ren.hasTarget = v.res.goal.isSome) (plan : Plan) (dev g : Int) :
    (v.handed plan dev g).hasTarget = true := by
  by_cases same : v.res.goal = some g
  · rw [Voice.handed, if_pos same, marked, same]; rfl
  · rw [Voice.handed, if_neg same, RenderRecord.takeGoal_hasTarget]

theorem Voice.Resolves.hasTarget {plan : Plan} {n : Nat} {w : Voice} (h : v.Resolves e plan n w) (marked : v.ren.hasTarget = v.res.goal.isSome) :
    w.ren.hasTarget = w.res.target.isSome := by
  rcases note : workingNote e.tables e.copy plan n with ⟨_ | x, path⟩ <;> simp only [Voice.Resolves, note] at h
  · obtain ⟨target, _, _, ren⟩ := h
    rw [ren, target]; rfl
  · obtain ⟨target, _, _, ren⟩ := h
    rw [ren, target, Voice.handed_hasTarget marked]; rfl

/-- R113, R127: after an adoption the has-target mark stands for a target. -/
theorem Voice.Adopts.hasTarget {w : Voice} (h : v.Adopts e i p w) (marked : v.ren.hasTarget = v.res.goal.isSome) :
    w.ren.hasTarget = w.res.target.isSome := by
  obtain ⟨_, _, _, resolved, dropped⟩ := h
  by_cases off : switchSet e.copy.switches (.enable i) = false ∨ e.note = none
  · obtain ⟨target, _, _, ren⟩ := dropped off
    rw [ren, target]; rfl
  · obtain ⟨on, note⟩ := not_or.mp off
    obtain ⟨n, note⟩ := Option.ne_none_iff_exists'.mp note
    exact (resolved n (Bool.not_eq_false _ ▸ on) note).hasTarget marked

end

/-! ### The command -/

section
variable {s : State} {src : Manual} {voice slot adoption : Byte}

theorem State.TargetsInRange.marked (h : s.TargetsInRange) (i : Fin 4) :
    (s.voices.get i).ren.hasTarget = (s.voices.get i).res.goal.isSome := by
  obtain ⟨_, _, goal, mark⟩ := Quad.All.get h.2.2 i
  rw [mark, goal]

/-- R112, R137: the voices after plan `p` is staged on voice `i` and every sound condition tested. -/
theorem State.stageOn_retest_tests (s : State) (i j : Fin 4) (p : Staged) (h : Handing) :
    s.Tests (if j = i then (s.voices.get j).stage s.surroundings i p h else s.voices.get j) ((s.stageOn i p h).retest.voices.get j) := by
  have sounds (r : RenderRecord) : (s.stageOn i p h).soundCondition r = s.soundCondition r := State.soundCondition_congr rfl rfl rfl r
  rw [State.retest_get, sounds, State.stageOn, Quad.update_get]
  exact s.tests_retest _

theorem State.answerBind_refuses (h : ¬(voice.toNat ≤ 3 ∧ slot.toNat ≤ 15 ∧ adoption.toNat ≤ 1)) :
    s.answerBind voice slot adoption = (s, .range, []) := by
  rw [State.answerBind]
  by_cases v : voice.toNat ≤ 3
  · by_cases k : slot.toNat ≤ 15
    · rw [readAdoption_of_lt (by omega)]
      cases readFin 4 voice <;> cases readFin 16 slot <;> rfl
    · rw [readFin_of_le (b := slot) (by omega)]
      cases readFin 4 voice <;> rfl
  · rw [readFin_of_le (b := voice) (by omega)]
    rfl

/-- R111: the state that an accepted BIND leaves. -/
def State.bound (s : State) (voice slot adoption : Byte) : State :=
  (s.stageOn (Fin.ofNat 4 voice.toNat) ⟨s.tables.plans.getD slot.toNat planOff, Fin.ofNat 16 slot.toNat⟩
    (.ofAdoption (decide (adoption = 1#8)))).retest

theorem State.answerBind_binds (h : voice.toNat ≤ 3 ∧ slot.toNat ≤ 15 ∧ adoption.toNat ≤ 1) :
    s.answerBind voice slot adoption = (s.bound voice slot adoption, .done,
      bindData ((s.bound voice slot adoption).voices.get (Fin.ofNat 4 voice.toNat)).res) := by
  obtain ⟨v, k, now⟩ := h
  have index : (Fin.ofNat 16 slot.toNat).val = slot.toNat := Nat.mod_eq_of_lt (by omega)
  simp only [State.answerBind, readFin_of_lt (show voice.toNat < 4 by omega), readFin_of_lt (show slot.toNat < 16 by omega),
    readAdoption_of_le now, index, State.bound]

theorem State.Quiet.exec_bind {t : State} {code : ReplyCode} {data : List Byte} (h : s.Quiet)
    (answers : s.answerBind voice slot adoption = (t, code, data)) :
    exec (.bind src voice slot adoption) s = .next (t.reply src ⟨0x33#8, code, data⟩) :=
  congrArg Host.Outcome.next (h.command_answers (c := .bind) (body := fun u => u.answerBind voice slot adoption) (by cases src <;> decide) answers)

end

/-- Settles O22: the checks, then the named voice by whether it adopts at once, and the other voices. -/
theorem bindStagesALibrarySlot : Obligations.BindStagesALibrarySlot := by
  refine fun s src voice slot adoption quiet => ⟨fun refused => quiet.exec_bind (State.answerBind_refuses refused), fun ok => ?_⟩
  intro i k plan v now
  let staged := v.stage s.surroundings i ⟨plan, k⟩ (.ofAdoption (decide (adoption = 1#8)))
  have tests (j : Fin 4) : s.Tests (if j = i then (s.voices.get j).stage _ i _ _ else s.voices.get j) ((s.bound voice slot adoption).voices.get j) :=
    s.stageOn_retest_tests i j ⟨plan, k⟩ _
  have tested : s.Tests staged ((s.bound voice slot adoption).voices.get i) := by simpa only [if_pos] using tests i
  obtain ⟨res, mark⟩ := tested.res_hasTarget
  refine ⟨(s.bound voice slot adoption).voices, _, quiet.exec_bind (State.answerBind_binds ok), fun j other => ?_, staged, tested,
    fun waits => ?_, fun adopts => ?_⟩
  · simpa only [if_neg other] using tests j
  · have stands : staged = { v with res := { v.res with staged := some ⟨plan, k⟩ } } := Voice.stage_waits (by simpa [now] using waits)
    exact ⟨stands, by rw [res, stands]; rfl⟩
  · have adopted : v.Adopts s.surroundings i ⟨plan, k⟩ staged := Voice.stage_now (by simpa [now] using adopts)
    refine ⟨adopted, fun inRange => ?_, ?_⟩
    · rw [mark, res]
      exact adopted.hasTarget (inRange.marked i)
    · obtain ⟨_, binding, unstaged, _⟩ := adopted
      rw [res, bindData, binding, unstaged]
      rfl

end Sys2Proof.Machine

/-! ## Working notes and the range fold (R116, R119 to R125) -/

namespace Sys2Proof.Machine

/-! ### Tones counted upward and downward -/

/-- `e` lists the tones in ascending order. -/
structure Enumerates (e : Int → Int) (tone : Int → Bool) : Prop where
  mono : StrictMono e
  tone_iff : ∀ x, tone x = true ↔ ∃ j, e j = x

namespace Enumerates

variable {e : Int → Int} {tone : Int → Bool} (h : Enumerates e tone)
include h

theorem isTone (j : Int) : tone (e j) = true := (h.tone_iff _).mpr ⟨j, rfl⟩

theorem card_above {x a b : Int} (above : ∀ j, x < e j ↔ a < j) (le : a ≤ b) :
    (((Finset.Ioc x (e b)).filter fun y => tone y = true).card : Int) = b - a := by
  have listed : ((Finset.Ioc x (e b)).filter fun y => tone y = true) = (Finset.Ioc a b).image e := by
    ext y
    simp only [Finset.mem_filter, Finset.mem_Ioc, Finset.mem_image, h.tone_iff]
    constructor
    · rintro ⟨⟨low, high⟩, j, rfl⟩
      exact ⟨j, ⟨(above j).mp low, h.mono.le_iff_le.mp high⟩, rfl⟩
    · rintro ⟨j, ⟨low, high⟩, rfl⟩
      exact ⟨⟨(above j).mpr low, h.mono.le_iff_le.mpr high⟩, j, rfl⟩
  rw [listed, Finset.card_image_of_injective _ h.mono.injective, Int.card_Ioc]
  omega

theorem card_below {x a b : Int} (below : ∀ j, e j < x ↔ j < a) (le : b ≤ a) :
    (((Finset.Ico (e b) x).filter fun y => tone y = true).card : Int) = a - b := by
  have listed : ((Finset.Ico (e b) x).filter fun y => tone y = true) = (Finset.Ico b a).image e := by
    ext y
    simp only [Finset.mem_filter, Finset.mem_Ico, Finset.mem_image, h.tone_iff]
    constructor
    · rintro ⟨⟨low, high⟩, j, rfl⟩
      exact ⟨j, ⟨h.mono.le_iff_le.mp low, (below j).mp high⟩, rfl⟩
    · rintro ⟨j, ⟨low, high⟩, rfl⟩
      exact ⟨⟨h.mono.le_iff_le.mpr low, (below j).mpr high⟩, j, rfl⟩
  rw [listed, Finset.card_image_of_injective _ h.mono.injective, Int.card_Ico]
  omega

/-- No tone lies between two tones that follow one another. -/
theorem none_between {j x : Int} (low : e j < x) (high : x < e (j + 1)) : tone x = false := by
  rw [← Bool.not_eq_true, h.tone_iff]
  rintro ⟨i, rfl⟩
  have after := h.mono.lt_iff_lt.mp low
  have before := h.mono.lt_iff_lt.mp high
  omega

/-- The `k`-th tone from the tone `e b`. -/
theorem steps (b k : Int) :
    tone (e (b + k)) = true ∧
      (0 < k → e b < e (b + k) ∧ (((Finset.Ioc (e b) (e (b + k))).filter fun y => tone y = true).card : Int) = k) ∧
      (k < 0 → e (b + k) < e b ∧ (((Finset.Ico (e (b + k)) (e b)).filter fun y => tone y = true).card : Int) = -k) := by
  refine ⟨h.isTone _, fun up => ⟨h.mono (by omega), ?_⟩, fun down => ⟨h.mono (by omega), ?_⟩⟩
  · rw [h.card_above (fun _ => h.mono.lt_iff_lt) (by omega)]
    omega
  · rw [h.card_below (fun _ => h.mono.lt_iff_lt) (by omega)]
    omega

end Enumerates

/-! ### The members of a set, in every octave (R38) -/

theorem membersOf_sorted (s : PitchSet) : (membersOf s).Pairwise (· < ·) := List.pairwise_lt_range.filter _

theorem mem_membersOf {s : PitchSet} {x : Nat} : x ∈ membersOf s ↔ x < 12 ∧ s.getLsbD x = true := by simp [membersOf]

/-- A sorted list is its entries below `p`, and then the rest. -/
theorem sorted_split (p : Nat) {l : List Nat} (sorted : l.Pairwise (· < ·)) :
    l.filter (· < p) ++ l.filter (p ≤ ·) = l := by
  induction l with
  | nil => rfl
  | cons x l ih =>
    obtain ⟨least, sorted⟩ := List.pairwise_cons.mp sorted
    by_cases below : x < p
    · simp [below, ih sorted]
    · have rest : l.filter (· < p) = [] := List.filter_eq_nil_iff.mpr fun y hy => by have := least y hy; simp; omega
      have kept := ih sorted
      rw [rest, List.nil_append] at kept
      simp [below, Nat.le_of_not_lt below, rest, kept]

/-- The entries of a sorted list below `p` are the first ones. -/
theorem sorted_getElem_lt_iff {p i : Nat} {l : List Nat} (sorted : l.Pairwise (· < ·)) (hi : i < l.length) :
    l[i] < p ↔ i < (l.filter (· < p)).length := by
  have split := sorted_split p sorted
  rw [List.getElem_of_eq split.symm hi, List.getElem_append]
  split
  next first => simpa [first] using List.of_mem_filter (List.getElem_mem first)
  next later =>
    have above : ∀ y ∈ l.filter (p ≤ ·), p ≤ y := fun y hy => by simpa using List.of_mem_filter hy
    exact iff_of_false (Nat.not_lt.mpr (above _ (List.getElem_mem _))) later

section
variable {s : PitchSet}

/-- How many members a set has. -/
abbrev memberCount (s : PitchSet) : Nat := (membersOf s).length

/-- The members of a set in every octave, in ascending order and counted from class 0. -/
def toneAt (s : PitchSet) (j : Int) : Int := 12 * (j / memberCount s) + ((membersOf s).getD (j % memberCount s).toNat 0 : Nat)

/-- How many members lie below a class. -/
def classesBelow (s : PitchSet) (p : Nat) : Nat := ((membersOf s).filter (· < p)).length

/-- The place of the first tone at or above `x`. -/
def firstPlace (s : PitchSet) (x : Int) : Int := classesBelow s (x % 12).toNat + memberCount s * (x / 12)

theorem classesBelow_le (s : PitchSet) (p : Nat) : classesBelow s p ≤ memberCount s := List.length_filter_le _ _

theorem toneAt_place {i : Nat} (hi : i < memberCount s) : toneAt s i = (membersOf s)[i] := by
  have octave : (i : Int) / memberCount s = 0 := Int.ediv_eq_zero_of_lt (by omega) (by omega)
  have place : ((i : Int) % memberCount s).toNat = i := by rw [Int.emod_eq_of_lt (by omega) (by omega), Int.toNat_natCast]
  rw [toneAt, octave, place, List.getD_eq_getElem _ _ hi]
  omega

theorem toneAt_first_octave {i : Nat} (hi : i < memberCount s) : 0 ≤ toneAt s i ∧ toneAt s i < 12 := by
  have member := (mem_membersOf.mp (List.getElem_mem hi)).1
  rw [toneAt_place hi]
  omega

/-- The highest member below a class. -/
theorem toneAt_last_below {p : Nat} (filled : 0 < classesBelow s p) :
    toneAt s (classesBelow s p - 1) = (((membersOf s).filter (· < p)).getLastD 0 : Nat) := by
  have le := classesBelow_le s p
  have place : (classesBelow s p : Int) - 1 = (classesBelow s p - 1 : Nat) := by omega
  have inside : classesBelow s p - 1 < ((membersOf s).filter (· < p)).length := Nat.sub_lt filled one_pos
  rw [place, toneAt_place (by omega), List.getElem_of_eq (sorted_split p (membersOf_sorted s)).symm, List.getElem_append_left inside,
    List.getLastD_eq_getLast?, List.getLast?_eq_getElem?, ← classesBelow, List.getElem?_eq_getElem inside, Option.getD_some]

variable (root : s.getLsbD 0 = true)
include root

theorem memberCount_pos : 0 < memberCount s := List.length_pos_of_mem (mem_membersOf.mpr ⟨by omega, root⟩)

theorem toneAt_octaves (j u : Int) : toneAt s (j + memberCount s * u) = toneAt s j + 12 * u := by
  have pos := memberCount_pos root
  rw [toneAt, toneAt, Int.add_mul_ediv_left _ _ (by omega), Int.add_mul_emod_self_left]
  omega

/-- Each place is one of the first octave, some octaves on. -/
theorem place_cases (j : Int) : ∃ (i : Nat) (u : Int), i < memberCount s ∧ j = i + memberCount s * u := by
  have pos := memberCount_pos root
  have low := Int.emod_nonneg j (by omega : (memberCount s : Int) ≠ 0)
  have high := Int.emod_lt_of_pos j (Int.natCast_pos.mpr pos)
  refine ⟨(j % memberCount s).toNat, j / memberCount s, by omega, ?_⟩
  rw [Int.toNat_of_nonneg low, Int.emod_add_mul_ediv]

theorem toneAt_strictMono : StrictMono (toneAt s) := by
  refine strictMono_int_of_lt_succ fun j => ?_
  obtain ⟨i, u, hi, rfl⟩ := place_cases root j
  rw [add_right_comm, toneAt_octaves root, toneAt_octaves root]
  have now := toneAt_first_octave hi
  by_cases inside : i + 1 < memberCount s
  · have next := toneAt_place inside
    rw [Nat.cast_add, Nat.cast_one] at next
    rw [next, toneAt_place hi]
    have := List.pairwise_iff_getElem.mp (membersOf_sorted s) i (i + 1) hi inside (by omega)
    omega
  · have wraps : (i : Int) + 1 = (0 : Nat) + memberCount s * 1 := by omega
    have next := toneAt_first_octave (memberCount_pos root)
    rw [wraps, toneAt_octaves root]
    omega

theorem toneAt_lists (x : Int) : hasClass s x = true ↔ ∃ j, toneAt s j = x := by
  constructor
  · intro bit
    obtain ⟨i, hi, place⟩ := List.mem_iff_getElem.mp (mem_membersOf.mpr ⟨by omega, bit⟩ : (x % 12).toNat ∈ membersOf s)
    refine ⟨i + memberCount s * (x / 12), ?_⟩
    rw [toneAt_octaves root, toneAt_place hi, place]
    omega
  · rintro ⟨j, rfl⟩
    obtain ⟨i, u, hi, rfl⟩ := place_cases root j
    have range := toneAt_first_octave hi
    have reduced : (toneAt s (i + memberCount s * u) % 12).toNat = (membersOf s)[i] := by
      rw [toneAt_octaves root, Int.add_mul_emod_self_left, Int.emod_eq_of_lt range.1 range.2, toneAt_place hi, Int.toNat_natCast]
    rw [hasClass, reduced]
    exact (mem_membersOf.mp (List.getElem_mem hi)).2

theorem toneAt_enumerates (c : Int) : Enumerates (fun j => c + toneAt s j) (fun x => hasClass s (x - c)) := by
  refine ⟨fun i j lt => Int.add_lt_add_left (toneAt_strictMono root lt) c, fun x => ?_⟩
  rw [toneAt_lists root]
  exact exists_congr fun j => by omega

/-- The class `p` stands between the members below it and the others. -/
theorem toneAt_classesBelow {p : Nat} (hp : p < 12) : toneAt s (classesBelow s p - 1) < p ∧ p ≤ toneAt s (classesBelow s p) := by
  have le := classesBelow_le s p
  have pos := memberCount_pos root
  have first := toneAt_first_octave pos
  have split {i : Nat} (hi : i < memberCount s) : toneAt s i < p ↔ i < classesBelow s p := by
    rw [toneAt_place hi, Int.ofNat_lt]
    exact sorted_getElem_lt_iff (membersOf_sorted s) hi
  constructor
  · rcases below : classesBelow s p with _ | n
    · have last := toneAt_first_octave (show memberCount s - 1 < memberCount s by omega)
      have octave : ((0 : Nat) : Int) - 1 = (memberCount s - 1 : Nat) + memberCount s * -1 := by omega
      rw [octave, toneAt_octaves root]
      omega
    · rw [Nat.cast_succ, add_sub_cancel_right]
      exact (split (by omega)).mpr (by omega)
  · by_cases all : classesBelow s p = memberCount s
    · have octave : (memberCount s : Int) = (0 : Nat) + memberCount s * 1 := by omega
      rw [all, octave, toneAt_octaves root]
      omega
    · exact Int.not_lt.mp fun below => lt_irrefl _ ((split (by omega)).mp below)

theorem toneAt_lt_iff (x j : Int) : toneAt s j < x ↔ j < firstPlace s x := by
  have range := toneAt_classesBelow root (p := (x % 12).toNat) (by omega)
  have before : toneAt s (firstPlace s x - 1) < x := by
    rw [firstPlace, add_sub_right_comm, toneAt_octaves root]; omega
  have after : x ≤ toneAt s (firstPlace s x) := by
    rw [firstPlace, toneAt_octaves root]; omega
  constructor
  · exact fun below => (toneAt_strictMono root).lt_iff_lt.mp (lt_of_lt_of_le below after)
  · exact fun lt => lt_of_le_of_lt ((toneAt_strictMono root).monotone (by omega)) before

end

/-! ### SCALAR (R119, R120) -/

section
variable {slot : ScaleSlot} (root : slot.members.getLsbD 0 = true)
include root

/-- R119, Table 7.3: the place of the base note in the first octave, and the offset, by whether the class is a scale note and by the
rule. -/
theorem baseDegree_cases {p : Nat} (hp : p < 12) :
    let d := baseDegree slot p
    let place := d.1 + memberCount slot.members * d.2.2
    let below : Int := classesBelow slot.members p
    (slot.members.getLsbD p = true ∧ place = below ∧ d.2.1 = 0) ∨
      (slot.members.getLsbD p = false ∧ slot.rule ≠ .upper ∧ place = below - 1 ∧
        d.2.1 = if slot.rule = .parallel then p - toneAt slot.members (below - 1) else 0) ∨
      (slot.members.getLsbD p = false ∧ slot.rule = .upper ∧ place = below ∧ d.2.1 = 0) := by
  intro d place below
  cases member : slot.members.getLsbD p with
  | true => exact .inl (by simp [place, d, below, baseDegree, member, classesBelow])
  | false =>
    refine .inr ?_
    cases rule : slot.rule with
    | parallel =>
      have positive : p ≠ 0 := by rintro rfl; rw [root] at member; cases member
      have filled : 0 < classesBelow slot.members p :=
        List.length_pos_of_mem (List.mem_filter.mpr ⟨mem_membersOf.mpr ⟨by omega, root⟩, by simpa using Nat.pos_of_ne_zero positive⟩)
      have base : d = (below - 1, p - toneAt slot.members (below - 1), 0) := by
        rw [toneAt_last_below filled]
        simp only [d, below, baseDegree, member, rule]
        rfl
      exact .inl (by simp [place, base])
    | lower => exact .inl (by simp [place, d, below, baseDegree, member, rule, classesBelow])
    | upper =>
      refine .inr ⟨rfl, rfl, ?_⟩
      have le := classesBelow_le slot.members p
      by_cases rest : classesBelow slot.members p < memberCount slot.members
      · have base : d = (below, 0, 0) := by simp only [d, baseDegree, member, rule]; exact if_pos rest
        simp [place, base]
      · have base : d = (0, 0, 1) := by simp only [d, baseDegree, member, rule]; exact if_neg rest
        have all : classesBelow slot.members p = memberCount slot.members := by omega
        simp [place, base, below, all]

/-- R120: a SCALAR step counts places from the base note. -/
theorem scalarNote_eq (tonic : Fin 12) (n : Nat) (k : Int) :
    let x : Int := (n : Int) - tonic.val
    let d := baseDegree slot (x % 12).toNat
    scalarNote slot tonic n k =
      tonic.val + toneAt slot.members (d.1 + memberCount slot.members * d.2.2 + memberCount slot.members * (x / 12) + k) + d.2.1 := by
  intro x d
  have j : Int.fdiv (d.1 + k) (memberCount slot.members) = (d.1 + k) / memberCount slot.members := Int.fdiv_eq_ediv_of_nonneg _ (by omega)
  have note : scalarNote slot tonic n k = (n - (x % 12).toNat) + (toneAt slot.members (d.1 + k) + 12 * d.2.2) + d.2.1 := by
    have place : d.1 + k - (d.1 + k) / memberCount slot.members * memberCount slot.members = (d.1 + k) % memberCount slot.members := by
      rw [Int.emod_def, mul_comm]
    simp only [scalarNote, toneAt]
    rw [show Int.fdiv (d.1 + k) ((membersOf slot.members).length : Int) = _ from j, place]
    ring
  rw [note, ← toneAt_octaves root]
  have e : d.1 + memberCount slot.members * d.2.2 + memberCount slot.members * (x / 12) + k =
    d.1 + k + memberCount slot.members * d.2.2 + memberCount slot.members * (x / 12) := by ring
  rw [e, toneAt_octaves root _ (x / 12)]
  omega

/-- R119, R120: the base note stands at place `b`, and a SCALAR step of `k` goes to place `b + k`, with the offset `o`. -/
theorem scalarNote_base (tonic : Fin 12) (n : Nat) :
    let tone := hasClass slot.members (n - tonic.val)
    let e := fun j => (tonic.val : Int) + toneAt slot.members j
    ∃ b o, (∀ k, scalarNote slot tonic n k = e (b + k) + o) ∧
      ((tone = true ∧ e b = n ∧ o = 0) ∨
        (tone = false ∧ slot.rule ≠ .upper ∧ e b < n ∧ n < e (b + 1) ∧ o = if slot.rule = .parallel then n - e b else 0) ∨
        (tone = false ∧ slot.rule = .upper ∧ n < e b ∧ e (b - 1) < n ∧ o = 0)) := by
  intro tone e
  let x : Int := (n : Int) - tonic.val
  let r := firstPlace slot.members x
  have before : toneAt slot.members (r - 1) < x := (toneAt_lt_iff root x _).mpr (by omega)
  have after : x ≤ toneAt slot.members r := Int.not_lt.mp fun below => lt_irrefl _ ((toneAt_lt_iff root x _).mp below)
  have above (untoned : tone = false) : x < toneAt slot.members r := by
    refine lt_of_le_of_ne after fun same => ?_
    rw [show tone = true from (toneAt_lists root x).mpr ⟨r, same.symm⟩] at untoned
    cases untoned
  have bit : slot.members.getLsbD (x % 12).toNat = tone := rfl
  have first : (classesBelow slot.members (x % 12).toNat : Int) + memberCount slot.members * (x / 12) = r := rfl
  have preceding : (classesBelow slot.members (x % 12).toNat : Int) - 1 + memberCount slot.members * (x / 12) = r - 1 := by
    rw [← first, add_sub_right_comm]
  refine ⟨_, _, fun k => scalarNote_eq root tonic n k, ?_⟩
  simp only [e]
  obtain ⟨member, place, offset⟩ | ⟨member, rule, place, offset⟩ | ⟨member, rule, place, offset⟩ :=
    baseDegree_cases root (p := (x % 12).toNat) (by omega) <;> rw [bit] at member <;> rw [place, offset]
  · obtain ⟨j, same⟩ := (toneAt_lists root x).mp member
    have low := (toneAt_strictMono root).lt_iff_lt.mp (same ▸ before)
    have high := (toneAt_strictMono root).le_iff_le.mp (same ▸ after)
    refine .inl ⟨member, ?_, rfl⟩
    rw [first, show r = j by omega]
    omega
  · have octaves := toneAt_octaves root (classesBelow slot.members (x % 12).toNat - 1) (x / 12)
    have next := above member
    rw [preceding] at octaves ⊢
    refine .inr (.inl ⟨member, rule, by omega, by rw [sub_add_cancel]; omega, if_congr Iff.rfl ?_ rfl⟩)
    omega
  · have next := above member
    rw [first]
    exact .inr (.inr ⟨member, rule, by omega, by omega, rfl⟩)

end

/-! ### CHORDAL (R121, R122) -/

/-- A function that moves `d` places moves `k * d` places in `k` steps. -/
theorem iterate_places {f e : Int → Int} {d : Int} (moves : ∀ j, f (e j) = e (j + d)) (k : Nat) (j : Int) : iterate f k (e j) = e (j + k * d) := by
  induction k generalizing j with
  | zero => simp [iterate]
  | succ k ih =>
    rw [iterate, moves, ih]
    congr 1
    push_cast
    ring

section
variable {s : PitchSet} (root : s.getLsbD 0 = true) (c : Fin 12)
include root

theorem lt_tone_iff (x j : Int) : x < c.val + toneAt s j ↔ firstPlace s (x - c.val + 1) - 1 < j := by
  have := toneAt_lt_iff root (x - c.val + 1) j
  omega

theorem tone_lt_iff (x j : Int) : c.val + toneAt s j < x ↔ j < firstPlace s (x - c.val) := by
  have := toneAt_lt_iff root (x - c.val) j
  omega

/-- R121: the nearest chord tone above `x` is that at the first place whose tone is above it. -/
theorem toneAbove_eq {x a : Int} (above : ∀ j, x < c.val + toneAt s j ↔ a < j) : toneAbove c s x = c.val + toneAt s (a + 1) := by
  have tones := toneAt_enumerates root c.val
  have low := (above (a + 1)).mpr (by omega)
  have high := mt (above a).mp (lt_irrefl a)
  have octave : toneAt s (a + 1) ≤ toneAt s (a + memberCount s * 1) :=
    (toneAt_strictMono root).monotone (by have := memberCount_pos root; omega)
  rw [toneAt_octaves root] at octave
  have found : ((List.range' 1 12).find? fun d : Nat => hasClass s (x + (d : Int) - c.val)) = some (c.val + toneAt s (a + 1) - x).toNat := by
    refine List.find?_range'_eq_some.mpr ⟨?_, List.mem_range'_1.mpr (by omega), fun d low' high' => ?_⟩
    · rw [show x + ((c.val + toneAt s (a + 1) - x).toNat : Int) = c.val + toneAt s (a + 1) by omega]
      exact tones.isTone (a + 1)
    · rw [Bool.not_eq_true', ← Bool.not_eq_true, tones.tone_iff (x + d)]
      rintro ⟨j, place⟩
      have after := (above j).mp (by omega)
      have := tones.mono.le_iff_le.mpr (show a + 1 ≤ j by omega)
      omega
  rw [toneAbove, found, Option.getD_some]
  omega

/-- R121: the nearest chord tone below `x` is that at the last place whose tone is below it. -/
theorem toneBelow_eq {x b : Int} (below : ∀ j, c.val + toneAt s j < x ↔ j < b) : toneBelow c s x = c.val + toneAt s (b - 1) := by
  have tones := toneAt_enumerates root c.val
  have high := (below (b - 1)).mpr (by omega)
  have low := mt (below b).mp (lt_irrefl b)
  have octave : toneAt s (b + memberCount s * -1) ≤ toneAt s (b - 1) :=
    (toneAt_strictMono root).monotone (by have := memberCount_pos root; omega)
  rw [toneAt_octaves root] at octave
  have found : ((List.range' 1 12).find? fun d : Nat => hasClass s (x - (d : Int) - c.val)) = some (x - (c.val + toneAt s (b - 1))).toNat := by
    refine List.find?_range'_eq_some.mpr ⟨?_, List.mem_range'_1.mpr (by omega), fun d low' high' => ?_⟩
    · rw [show x - ((x - (c.val + toneAt s (b - 1))).toNat : Int) = c.val + toneAt s (b - 1) by omega]
      exact tones.isTone (b - 1)
    · rw [Bool.not_eq_true', ← Bool.not_eq_true, tones.tone_iff (x - d)]
      rintro ⟨j, place⟩
      have before := (below j).mp (by omega)
      have := tones.mono.le_iff_le.mpr (show j ≤ b - 1 by omega)
      omega
  rw [toneBelow, found, Option.getD_some]
  omega

/-- R121: `k` chord tones up from a note that stands above place `a` and not above the next. -/
theorem iterate_toneAbove {x a k : Int} (above : ∀ j, x < c.val + toneAt s j ↔ a < j) (up : 0 < k) :
    iterate (toneAbove c s) k.toNat x = c.val + toneAt s (a + k) := by
  obtain ⟨n, count⟩ := Nat.exists_eq_succ_of_ne_zero (show k.toNat ≠ 0 by omega)
  have step (j : Int) : toneAbove c s (c.val + toneAt s j) = c.val + toneAt s (j + 1) :=
    toneAbove_eq root c fun _ => (toneAt_enumerates root c.val).mono.lt_iff_lt
  rw [count, iterate, toneAbove_eq root c above, iterate_places (e := fun j => c.val + toneAt s j) step]
  simp only [show a + 1 + n * 1 = a + k by omega]

/-- R121: `k` chord tones down from a note. -/
theorem iterate_toneBelow {x b k : Int} (below : ∀ j, c.val + toneAt s j < x ↔ j < b) (down : k < 0) :
    iterate (toneBelow c s) (-k).toNat x = c.val + toneAt s (b + k) := by
  obtain ⟨n, count⟩ := Nat.exists_eq_succ_of_ne_zero (show (-k).toNat ≠ 0 by omega)
  have step (j : Int) : toneBelow c s (c.val + toneAt s j) = c.val + toneAt s (j + -1) :=
    toneBelow_eq root c fun _ => (toneAt_enumerates root c.val).mono.lt_iff_lt
  rw [count, iterate, toneBelow_eq root c below, iterate_places (e := fun j => c.val + toneAt s j) step]
  simp only [show b - 1 + n * -1 = b + k by omega]

end

/-- R122: the bass's highest note at or below n − 12. -/
theorem bassNote_range (b : Fin 12) (n : Nat) : bassNote b n ≤ (n : Int) - 12 ∧ (n : Int) - 24 < bassNote b n ∧ bassNote b n % 12 = b.val := by
  simp only [bassNote]
  omega

section
variable {shapes : List PitchSet} {c : Chord} {n : Nat} {k : Int}

theorem chordalNote_bass : chordalNote shapes c n 0 = bassNote (c.bass.getD c.root) n := rfl

theorem chordalNote_up (up : 0 < k) : chordalNote shapes c n k = iterate (toneAbove c.root (shapes.getD c.shape.val 0#12)) k.toNat n := by
  simp only [chordalNote, if_neg (show k ≠ 0 by omega), if_pos up]

theorem chordalNote_down (down : k < 0) : chordalNote shapes c n k = iterate (toneBelow c.root (shapes.getD c.shape.val 0#12)) (-k).toNat n := by
  simp only [chordalNote, if_neg (show k ≠ 0 by omega), if_neg (show ¬0 < k by omega)]

end

/-! ### The range fold (R125) -/

section
variable {lo hi t u : Int}

theorem octaveFold_inside (low : lo ≤ t) (high : t ≤ hi) : octaveFold lo hi t = t := by
  simp only [octaveFold, if_neg (Int.not_lt.mpr low), if_neg (Int.not_lt.mpr high)]

/-- R125 step 1: a note below the range is raised to the lowest note of its class at or above `lo`. -/
theorem raised_eq (class_eq : (u - t) % 12 = 0) (low : lo ≤ u) (lowest : u < lo + 12) : t + 12 * octavesOver (lo - t) = u := by
  rw [octavesOver]
  omega

/-- R125 step 2: a note above the range is lowered to the highest note of its class at or below `hi`. -/
theorem lowered_eq (class_eq : (u - t) % 12 = 0) (high : u ≤ hi) (highest : hi < u + 12) : t - 12 * octavesOver (t - hi) = u := by
  rw [octavesOver]
  omega

theorem octaveFold_raises (below : t < lo) (class_eq : (u - t) % 12 = 0) (low : lo ≤ u) (lowest : u < lo + 12) (high : u ≤ hi) :
    octaveFold lo hi t = u := by
  simp only [octaveFold, if_pos below, raised_eq class_eq low lowest, if_neg (Int.not_lt.mpr high)]

theorem octaveFold_lowers (ordered : lo ≤ hi) (above : hi < t) (class_eq : (u - t) % 12 = 0) (high : u ≤ hi) (highest : hi < u + 12) :
    octaveFold lo hi t = u := by
  simp only [octaveFold, if_neg (show ¬t < lo by omega), if_pos above, lowered_eq class_eq high highest]

/-- R125: where the range holds no note of the class, the fold ends on the highest one below it. -/
theorem octaveFold_misses (ordered : lo ≤ hi) (class_eq : (u - t) % 12 = 0) (low : u < lo) (high : hi < u + 12) : octaveFold lo hi t = u := by
  by_cases below : t < lo
  · have raised := raised_eq (u := u + 12) (t := t) (lo := lo) (by omega) (by omega) (by omega)
    have lowered := lowered_eq (t := u + 12) (u := u) (hi := hi) (by omega) (by omega) high
    simp only [octaveFold, if_pos below, raised, if_pos high, lowered]
  · exact octaveFold_lowers ordered (by omega) class_eq (by omega) high

theorem rangeFold_inside (fold : octaveFold lo hi t = u) (low : lo ≤ u) : rangeFold lo hi t = (u, if u = t then .none else .octave) := by
  simp only [rangeFold, fold, if_neg (Int.not_lt.mpr low)]

theorem rangeFold_edge (fold : octaveFold lo hi t = u) (low : u < lo) :
    rangeFold lo hi t = if lo - u ≤ u + 12 - hi then (lo, .edge) else (hi, .edge) := by
  simp only [rangeFold, fold, if_pos low]

end

/-- Settles O39: SCALAR and CHORDAL steps as places among the tones, the other modes by their equations, and the fold by where the
note and its class lie. -/
theorem targetsFollowModeAndRange : Obligations.TargetsFollowModeAndRange := by
  refine ⟨⟨fun slot tonic N k root _ => ?_, fun shapes c N k root => ?_, fun t copy p N => ?_⟩, fun L H T ordered => ⟨fun low high => ?_,
    fun u below class_eq low lowest high => ?_, fun u above class_eq high highest low => ?_, fun u class_eq low high => ?_⟩⟩
  · intro tone
    have tones : Enumerates (fun j => tonic.val + toneAt slot.members j) tone := toneAt_enumerates root tonic.val
    obtain ⟨b, o, note, base⟩ := scalarNote_base root tonic N
    refine ⟨_, o, tones.isTone b, ?_, ?_⟩
    · obtain same | ⟨untoned, rule, low, high, offset⟩ | ⟨untoned, rule, high, low, offset⟩ := base
      · exact .inl same
      · exact .inr (.inl ⟨untoned, rule, low, fun x after before => tones.none_between after (before.trans high), offset⟩)
      · refine .inr (.inr ⟨untoned, rule, high, fun x after before => tones.none_between (low.trans after) ?_, offset⟩)
        rwa [sub_add_cancel]
    · rw [note, add_sub_cancel_right]
      exact tones.steps b k
  · intro tone T
    have tones : Enumerates (fun j => c.root.val + toneAt (shapes.getD c.shape.val 0#12) j) tone := toneAt_enumerates root c.root.val
    refine ⟨fun up => ?_, fun down => ?_, ?_⟩
    · have above := lt_tone_iff root c.root N
      rw [show T = _ from (chordalNote_up up).trans (iterate_toneAbove root c.root above up)]
      refine ⟨(above _).mpr (by omega), tones.isTone _, ?_⟩
      rw [tones.card_above above (by omega)]
      omega
    · have below := tone_lt_iff root c.root N
      rw [show T = _ from (chordalNote_down down).trans (iterate_toneBelow root c.root below down)]
      refine ⟨(below _).mpr (by omega), tones.isTone _, ?_⟩
      rw [tones.card_below below (by omega)]
      omega
    · rintro rfl
      cases bass : c.bass <;> simp only [T, chordalNote_bass, bass] <;> exact bassNote_range _ N
  · refine ⟨fun mode => ?_, fun c mode chord => ?_, fun k mode chord fallback => ?_, fun mode chord fallback => ?_, fun mode => ?_, fun mode => ?_,
      fun mode => ?_⟩
    · simp only [workingNote, mode]
    · simp only [workingNote, mode, chord]
    · simp only [workingNote, mode, chord, fallback]
    · simp only [workingNote, mode, chord, fallback]
    · simp only [workingNote, mode]
    · simp only [workingNote, mode]
    · simp only [workingNote, mode]
  · rw [rangeFold_inside (octaveFold_inside low high) low, if_pos rfl]
  · rw [rangeFold_inside (octaveFold_raises below class_eq low lowest high) low, if_neg (by omega)]
  · rw [rangeFold_inside (octaveFold_lowers ordered above class_eq high (by omega)) low, if_neg (by omega)]
  · exact rangeFold_edge (octaveFold_misses ordered class_eq low high) low

end Sys2Proof.Machine


/-! ## Goals, glides and shifts (R130, R131, R133, R134) -/

namespace Sys2Proof.Machine

/-! ### The requested shift (R133, R134) -/

/-- R133: the clamp to two octaves, end by end. -/
theorem clampShift_eq (x : Int) : clampShift x = if x < -768 then -768 else if 768 < x then 768 else x := by
  unfold clampShift
  omega

section
variable {r : RenderRecord} {plan : Plan} {dev g I : Int}

theorem RenderRecord.formShift_present (interval : r.interval = some I) (follow : Bool) (dev : Int) :
    r.formShift follow dev = r.request (clampShift (if follow then I else I - dev)) := by
  simp [RenderRecord.formShift, interval]

theorem RenderRecord.formShift_absent (interval : r.interval = none) (follow : Bool) (dev : Int) : r.formShift follow dev = r := by
  simp [RenderRecord.formShift, interval]

/-! ### An interval goal (R130) -/

theorem RenderRecord.takeGoal_at_once (h : r.interval = none ∨ r.state = .idle ∨ plan.glide = 0) :
    r.takeGoal plan dev g = { r with hasTarget := true, interval := some g, glide := none }.formShift plan.follow dev := by
  cases interval : r.interval with
  | none => simp [RenderRecord.takeGoal, interval]
  | some i =>
    have now : r.state = .idle ∨ plan.glide = 0 := h.resolve_left (by simp [interval])
    simp only [RenderRecord.takeGoal, interval, if_pos now]

theorem RenderRecord.takeGoal_reached (interval : r.interval = some g) (sounds : r.state ≠ .idle) (glides : plan.glide ≠ 0) :
    r.takeGoal plan dev g = { r with hasTarget := true, glide := none } := by
  simp [RenderRecord.takeGoal, interval, sounds, glides]

theorem RenderRecord.takeGoal_glides (interval : r.interval = some I) (sounds : r.state ≠ .idle) (glides : plan.glide ≠ 0) (other : g ≠ I) :
    r.takeGoal plan dev g = { r with hasTarget := true, glide := some ⟨I, g, plan.glide, plan.glide⟩ } := by
  simp [RenderRecord.takeGoal, interval, sounds, glides, other]

/-! ### A glide step (R131) -/

theorem RenderRecord.glideStep_running {q : Glide} (glide : r.glide = some q) :
    r.glideStep = { r with
      interval := some (q.goal - Int.tdiv ((q.goal - q.start) * (q.remaining - 1 : Nat)) q.length)
      glide := if q.remaining - 1 = 0 then none else some { q with remaining := q.remaining - 1 } } := by
  simp [RenderRecord.glideStep, glide]

theorem RenderRecord.glideStep_none (glide : r.glide = none) : r.glideStep = r := by
  simp [RenderRecord.glideStep, glide]

end

/-- Settles O42: the record by its current interval for a goal, and by its glide for a hop. -/
theorem goalsGlidesAndShifts : Obligations.GoalsGlidesAndShifts := by
  intro r plan dev G shifted
  have formed (q : RenderRecord) (I : Int) (interval : q.interval = some I) (applied : q.applied = r.applied) :
      q.formShift plan.follow dev = shifted q I := by
    rw [RenderRecord.formShift_present interval, RenderRecord.request, clampShift_eq]
    simp only [shifted, applied]
  refine ⟨fun now => ?_, fun I interval sounds glides => ⟨?_, fun other => ?_⟩, ?step,
    fun I glide interval => ?_, fun glide interval => ?_⟩
  case step =>
    intro q glide one le I
    have ends : q.remaining - 1 = 0 ↔ q.remaining = 1 := by omega
    refine ⟨?_, fun last => by simp [I, last]⟩
    rw [RenderRecord.hopWork, RenderRecord.glideStep_running glide]
    simp only [ends]
    exact formed _ I rfl rfl
  · rw [RenderRecord.takeGoal_at_once now]
    exact formed _ G rfl rfl
  · rintro rfl
    exact RenderRecord.takeGoal_reached interval sounds glides
  · exact RenderRecord.takeGoal_glides interval sounds glides other
  · rw [RenderRecord.hopWork, RenderRecord.glideStep_none glide]
    exact formed r I interval rfl
  · rw [RenderRecord.hopWork, RenderRecord.glideStep_none glide, RenderRecord.formShift_absent interval]

end Sys2Proof.Machine


/-! ## The renderer's records stay in range (R131, R133, R134, R138, Tables 8.1 and 8.5) -/

namespace Sys2Proof.Machine

/-! ### What the resolver writes of a renderer record (R113, R117, R127, R129, R130) -/

/-- The three ways in which the resolver writes a renderer record, each keeping `R`: a goal, a mark of no target, and the
copy of the voice's enable. -/
structure HandedKept (R : RenderRecord → Prop) : Prop where
  takeGoal : ∀ r plan dev g, R r → R (r.takeGoal plan dev g)
  loseTarget : ∀ r, R r → R r.loseTarget
  enable : ∀ r b, R r → R { r with enable := b }

section
variable {R : RenderRecord → Prop} (k : HandedKept R) {v : Voice}
include k

theorem HandedKept.setGoal (h : R v.ren) (dev : Int) (t n : Nat) : R (v.setGoal dev t n).ren := by
  obtain ⟨_, e⟩ | ⟨_, e⟩ := v.setGoal_cases dev t n <;> rw [e]
  · exact h
  · exact k.takeGoal _ _ _ _ h

theorem HandedKept.resolveAt (h : R v.ren) (e : Surroundings) (n : Nat) : R (v.resolveAt e n).ren := by
  simp only [Voice.resolveAt]
  split
  · exact k.setGoal (by exact h) _ _ _
  · exact k.loseTarget _ h

theorem HandedKept.adopt (h : R v.ren) (e : Surroundings) (i : Fin 4) (p : Staged) : R (v.adopt e i p).ren := by
  simp only [Voice.adopt]
  split
  · exact k.resolveAt (by exact h) _ _
  · exact k.loseTarget _ h

theorem HandedKept.stage (h : R v.ren) (e : Surroundings) (i : Fin 4) (p : Staged) (x : Handing) : R (v.stage e i p x).ren := by
  simp only [Voice.stage]
  (repeat' split) <;> first
    | exact h
    | exact k.adopt (by exact h) _ _ _

theorem HandedKept.atNoteStart (h : R v.ren) (e : Surroundings) (c : Changes) (i : Fin 4) (n : Nat) : R (v.atNoteStart e c i n).ren := by
  simp only [Voice.atNoteStart]
  (repeat' split) <;> first
    | exact h
    | exact k.adopt h _ _ _
    | exact k.resolveAt h _ _
    | exact k.setGoal h _ _ _

theorem HandedKept.atPublication (h : R v.ren) (p : Publication) (e : Surroundings) (i : Fin 4) : R (v.atPublication p e i).ren := by
  simp only [Voice.atPublication, Voice.atContext]
  (repeat' split) <;> first
    | exact h
    | exact k.atNoteStart h _ _ _ _
    | exact k.resolveAt h _ _

theorem HandedKept.afterPublication (h : R v.ren) (p : Publication) (e : Surroundings) (i : Fin 4) : R (v.afterPublication p e i).ren :=
  k.enable _ _ (k.atPublication h p e i)

end

/-! ### The moves of a renderer record -/

/-- Every move of a renderer record, each keeping `R`. -/
structure RenderKept (R : RenderRecord → Prop) : Prop extends HandedKept R where
  atReset : R .atReset
  retest : ∀ r c, R r → R (r.retest c)
  cut : ∀ r, R r → R r.cut
  hopWork : ∀ r follow dev, R r → R (r.hopWork follow dev)
  fadeStep : ∀ r, R r → R r.fadeStep
  takeBoundary : ∀ r, R r → R r.takeBoundary
  grainFrame : ∀ r n, R r → R (r.grainFrame n)

/-- What every move of a renderer record keeps is kept by every move of a voice. -/
theorem RenderKept.voiceKept {R : RenderRecord → Prop} (k : RenderKept R) : VoiceKept fun v => R v.ren where
  atReset _ _ := k.atReset
  retest v c h := k.retest v.ren c h
  cut v h := k.cut v.ren h
  hopWork v dev h := k.hopWork v.ren v.res.plan.follow dev h
  fadeStep v h := k.fadeStep v.ren h
  takeBoundary v h := k.takeBoundary v.ren h
  grainFrame v n h := k.grainFrame v.ren n h
  afterPublication _ p e i h := k.toHandedKept.afterPublication h p e i
  stage _ e i p x h := k.toHandedKept.stage h e i p x

/-! ### What each move leaves of a renderer record -/

section
variable (r : RenderRecord)

/-- R133, R134: the forming of a requested shift writes the requested and the pending shift alone. -/
@[simp] theorem RenderRecord.formShift_frame (follow : Bool) (dev : Int) :
    (r.formShift follow dev).state = r.state ∧ (r.formShift follow dev).fade = r.fade ∧ (r.formShift follow dev).fadeOld = r.fadeOld ∧
      (r.formShift follow dev).interval = r.interval ∧ (r.formShift follow dev).glide = r.glide := by
  simp only [RenderRecord.formShift]; split <;> simp [RenderRecord.request]

/-- R136: the adoption of a pending shift writes shifts and ratio alone. -/
@[simp] theorem RenderRecord.adoptShift_frame :
    r.adoptShift.state = r.state ∧ r.adoptShift.fade = r.fade ∧ r.adoptShift.fadeOld = r.fadeOld ∧ r.adoptShift.interval = r.interval ∧
      r.adoptShift.glide = r.glide := by
  simp only [RenderRecord.adoptShift]; split <;> simp

/-- R131: a glide step writes the interval and the glide alone. -/
@[simp] theorem RenderRecord.glideStep_frame :
    r.glideStep.state = r.state ∧ r.glideStep.fade = r.fade ∧ r.glideStep.fadeOld = r.fadeOld ∧ r.glideStep.requested = r.requested ∧
      r.glideStep.pending = r.pending ∧ r.glideStep.applied = r.applied ∧ r.glideStep.ratio = r.ratio := by
  simp only [RenderRecord.glideStep]; split <;> simp

/-- R138, R139: a fade step moves the fade alone. -/
@[simp] theorem RenderRecord.fadeStep_frame :
    r.fadeStep.interval = r.interval ∧ r.fadeStep.glide = r.glide ∧ r.fadeStep.requested = r.requested ∧
      r.fadeStep.pending = r.pending ∧ r.fadeStep.applied = r.applied ∧ r.fadeStep.ratio = r.ratio ∧ r.fadeStep.hasTarget = r.hasTarget := by
  simp only [RenderRecord.fadeStep]; split <;> simp

/-- R135: a frame moves the grain timer and marks its boundary alone. -/
@[simp] theorem RenderRecord.grainFrame_frame (n : Nat) :
    (r.grainFrame n).state = r.state ∧ (r.grainFrame n).fade = r.fade ∧ (r.grainFrame n).fadeOld = r.fadeOld ∧
      (r.grainFrame n).interval = r.interval ∧ (r.grainFrame n).glide = r.glide ∧ (r.grainFrame n).requested = r.requested ∧
      (r.grainFrame n).pending = r.pending ∧ (r.grainFrame n).applied = r.applied ∧ (r.grainFrame n).ratio = r.ratio ∧
      (r.grainFrame n).hasTarget = r.hasTarget := by
  simp only [RenderRecord.grainFrame]; split <;> simp

/-- R130: what taking a goal can do: the interval is set at once and the shift formed, the goal is where the interval is, or a
glide of the plan's length starts. -/
theorem RenderRecord.takeGoal_cases (plan : Plan) (dev g : Int) :
    r.takeGoal plan dev g = { r with hasTarget := true, interval := some g, glide := none }.formShift plan.follow dev ∨
      r.takeGoal plan dev g = { r with hasTarget := true, glide := none } ∨
      ∃ i, r.interval = some i ∧ plan.glide ≠ 0 ∧
        r.takeGoal plan dev g = { r with hasTarget := true, glide := some ⟨i, g, plan.glide, plan.glide⟩ } := by
  by_cases now : r.interval = none ∨ r.state = .idle ∨ plan.glide = 0
  · exact .inl (RenderRecord.takeGoal_at_once now)
  simp only [not_or] at now
  obtain ⟨present, sounds, glides⟩ := now
  obtain ⟨i, interval⟩ := Option.ne_none_iff_exists'.mp present
  by_cases reached : g = i
  · exact .inr (.inl (RenderRecord.takeGoal_reached (reached ▸ interval) sounds glides))
  · exact .inr (.inr ⟨i, interval, glides, RenderRecord.takeGoal_glides interval sounds glides reached⟩)

@[simp] theorem RenderRecord.takeGoal_frame (plan : Plan) (dev g : Int) :
    (r.takeGoal plan dev g).state = r.state ∧ (r.takeGoal plan dev g).fade = r.fade ∧ (r.takeGoal plan dev g).fadeOld = r.fadeOld := by
  obtain e | e | ⟨i, _, _, e⟩ := r.takeGoal_cases plan dev g <;> simp [e]

@[simp] theorem RenderRecord.hopWork_frame (follow : Bool) (dev : Int) :
    (r.hopWork follow dev).fade = r.fade ∧ (r.hopWork follow dev).fadeOld = r.fadeOld := by
  simp [RenderRecord.hopWork]

/-- R137: a sound condition test leaves the interval and the glide. -/
@[simp] theorem RenderRecord.retest_glide_frame (c : Bool) : (r.retest c).interval = r.interval ∧ (r.retest c).glide = r.glide := by
  obtain ⟨_, _, e⟩ | ⟨_, _, e⟩ | ⟨_, _, e⟩ | e := r.retest_cases c <;> simp [e, RenderRecord.leaveIdle]

@[simp] theorem RenderRecord.takeBoundary_glide_frame : r.takeBoundary.interval = r.interval ∧ r.takeBoundary.glide = r.glide := by
  obtain ⟨d, _, _, e⟩ | ⟨_, e⟩ := r.takeBoundary_cases <;> simp [e]

end

/-! ### Shifts (R133, R134, R136) -/

theorem RenderRecord.ShiftsInRange.same {r q : RenderRecord} (h : r.ShiftsInRange) (requested : q.requested = r.requested)
    (pending : q.pending = r.pending) (applied : q.applied = r.applied) (ratio : q.ratio = r.ratio) : q.ShiftsInRange := by
  rw [RenderRecord.ShiftsInRange, requested, pending, applied, ratio]
  exact h

theorem RenderRecord.ShiftsInRange.formShift {r : RenderRecord} (h : r.ShiftsInRange) (follow : Bool) (dev : Int) :
    (r.formShift follow dev).ShiftsInRange := by
  obtain ⟨-, -, applied, ratio⟩ := id h
  cases interval : r.interval with
  | none => rwa [RenderRecord.formShift_absent interval]
  | some i =>
    have clamped := clampShift_range (if follow then i else i - dev)
    rw [RenderRecord.formShift_present interval]
    generalize clampShift _ = d at *
    refine ⟨?_, ?_, applied, ratio⟩
    · simpa [RenderRecord.request, shiftInRange] using clamped
    · by_cases same : d = r.applied
      · simp [RenderRecord.request, same]
      · simpa [RenderRecord.request, same, shiftInRange] using clamped

theorem RenderRecord.ShiftsInRange.adoptShift {r : RenderRecord} (h : r.ShiftsInRange) : r.adoptShift.ShiftsInRange := by
  obtain ⟨requested, pending, -, -⟩ := id h
  simp only [RenderRecord.adoptShift]
  split
  next d waits => exact ⟨requested, by simp, pending d waits, by dsimp only⟩
  next => exact h

theorem shiftsInRange_kept : RenderKept RenderRecord.ShiftsInRange where
  takeGoal r plan dev g h := by
    obtain e | e | ⟨i, _, _, e⟩ := r.takeGoal_cases plan dev g <;> rw [e]
    · exact RenderRecord.ShiftsInRange.formShift (by exact h) _ _
    · exact h
    · exact h
  loseTarget _ h := h
  enable _ _ h := h
  atReset := by simp [RenderRecord.ShiftsInRange, RenderRecord.atReset, shiftInRange, ratioCode_zero]
  retest r c h := by
    obtain ⟨_, _, e⟩ | ⟨_, _, e⟩ | ⟨_, _, e⟩ | e := r.retest_cases c <;> rw [e]
    · exact RenderRecord.ShiftsInRange.adoptShift (by exact h)
    all_goals exact h
  cut _ h := h
  hopWork r follow dev h := RenderRecord.ShiftsInRange.formShift (h.same (by simp) (by simp) (by simp) (by simp)) follow dev
  fadeStep r h := h.same (by simp) (by simp) (by simp) (by simp)
  takeBoundary r h := by
    unfold RenderRecord.takeBoundary
    split
    · exact RenderRecord.ShiftsInRange.adoptShift (by exact h)
    · exact h
  grainFrame r n h := h.same (by simp) (by simp) (by simp) (by simp)

/-! ### Fades (R138, Table 8.5) -/

theorem RenderRecord.FadePlaced.same {r q : RenderRecord} (h : r.FadePlaced) (state : q.state = r.state) (fade : q.fade = r.fade) :
    q.FadePlaced := by
  rw [RenderRecord.FadePlaced, state, fade]
  exact h

/-- R137, Table 8.5: a voice starts at fade 0, returns at the position it has fallen to, and turns to fall from where it is. -/
theorem RenderRecord.FadePlaced.retest {r : RenderRecord} (h : r.FadePlaced) (c : Bool) : (r.retest c).FadePlaced := by
  obtain ⟨_, idle, e⟩ | ⟨_, falling, e⟩ | ⟨_, sounds, e⟩ | e := r.retest_cases c <;> rw [e]
  · simp only [RenderRecord.FadePlaced, idle] at h
    simp [RenderRecord.FadePlaced, RenderRecord.leaveIdle, h]
  · simp only [RenderRecord.FadePlaced, falling] at h
    by_cases full : r.fade = 8
    · simp [RenderRecord.FadePlaced, full]
    · simp only [RenderRecord.FadePlaced, full, if_false]
      omega
  · have le : r.fade ≤ 8 := by
      obtain rising | sounding := sounds
      · simp only [RenderRecord.FadePlaced, rising] at h
        omega
      · simp only [RenderRecord.FadePlaced, sounding] at h
        omega
    by_cases zero : r.fade = 0
    · simp [RenderRecord.FadePlaced, zero]
    · simp only [RenderRecord.FadePlaced, zero, if_false]
      omega
  · exact h

/-- R138, Table 8.5: a fade step ends the rise at 8 and the fall at 0. -/
theorem RenderRecord.FadePlaced.fadeStep {r : RenderRecord} (h : r.FadePlaced) : r.fadeStep.FadePlaced := by
  rw [RenderRecord.fadeStep_eq]
  split
  next rising =>
    simp only [RenderRecord.FadePlaced, rising] at h
    by_cases top : 6 ≤ r.fade
    · simp only [RenderRecord.FadePlaced, top, if_true]
      omega
    · simp only [RenderRecord.FadePlaced, top, if_false]
      omega
  next falling =>
    simp only [RenderRecord.FadePlaced, falling] at h
    by_cases bottom : r.fade ≤ 1
    · simp only [RenderRecord.FadePlaced, bottom, if_true]
      omega
    · simp only [RenderRecord.FadePlaced, bottom, if_false]
      omega
  next => exact h

theorem fadePlaced_kept : RenderKept RenderRecord.FadePlaced where
  takeGoal r plan dev g h := h.same (by simp) (by simp)
  loseTarget _ h := h
  enable _ _ h := h
  atReset := rfl
  retest r c h := h.retest c
  cut _ _ := rfl
  hopWork r follow dev h := h.same (by simp) (by simp)
  fadeStep r h := h.fadeStep
  takeBoundary r h := h.same (by simp) (by simp)
  grainFrame r n h := h.same (by simp) (by simp)

/-! ### Glides (R131, Table 8.1) -/

/-- R131: the part of a distance that is left, with its quotient truncated, lies between none and all of it. -/
theorem tdiv_part_between (x : Int) {m n : Nat} (pos : 0 < n) (le : m ≤ n) :
    (0 ≤ x → 0 ≤ Int.tdiv (x * m) n ∧ Int.tdiv (x * m) n ≤ x) ∧ (x ≤ 0 → x ≤ Int.tdiv (x * m) n ∧ Int.tdiv (x * m) n ≤ 0) := by
  have up {y : Int} (y0 : 0 ≤ y) : 0 ≤ Int.tdiv (y * m) n ∧ Int.tdiv (y * m) n ≤ y := by
    rw [Int.tdiv_eq_ediv_of_nonneg (by positivity)]
    exact ⟨by positivity, Int.ediv_le_of_le_mul (by omega) (Int.mul_le_mul_of_nonneg_left (by omega) y0)⟩
  refine ⟨up, fun x0 => ?_⟩
  obtain ⟨low, high⟩ := up (y := -x) (by omega)
  rw [Int.neg_mul, Int.neg_tdiv] at low high
  omega

theorem RenderRecord.GlideBetween.same {r q : RenderRecord} (h : r.GlideBetween) (glide : q.glide = r.glide)
    (interval : q.interval = r.interval) : q.GlideBetween := by
  rw [RenderRecord.GlideBetween, glide, interval]
  exact h

theorem RenderRecord.GlideBetween.of_none {r : RenderRecord} (h : r.glide = none) : r.GlideBetween := by
  simp [RenderRecord.GlideBetween, h]

/-- R130: a glide that starts stands at its start. -/
theorem RenderRecord.GlideBetween.takeGoal (r : RenderRecord) (plan : Plan) (dev g : Int) : (r.takeGoal plan dev g).GlideBetween := by
  obtain e | e | ⟨i, interval, glides, e⟩ := r.takeGoal_cases plan dev g <;> rw [e]
  · exact .of_none (by simp)
  · exact .of_none rfl
  · rintro q ⟨⟩
    exact ⟨Nat.one_le_iff_ne_zero.mpr glides, le_refl _, i, interval, by simpa using le_total i g⟩

/-- R131: a glide step leaves the interval between the glide's start and its goal. -/
theorem RenderRecord.GlideBetween.glideStep {r : RenderRecord} (h : r.GlideBetween) : r.glideStep.GlideBetween := by
  cases glide : r.glide with
  | none => rwa [RenderRecord.glideStep_none glide]
  | some q =>
    obtain ⟨one, le, -⟩ := h q glide
    rw [RenderRecord.glideStep_running glide]
    by_cases last : q.remaining - 1 = 0
    · exact .of_none (by simp [last])
    · have part := tdiv_part_between (q.goal - q.start) (m := q.remaining - 1) (n := q.length) (by omega) (by omega)
      intro x running
      simp only [if_neg last, Option.mem_def, Option.some.injEq] at running
      subst running
      refine ⟨Nat.one_le_iff_ne_zero.mpr last, Nat.le_trans (Nat.sub_le _ _) le, _, rfl, ?_⟩
      obtain up | down := le_total q.start q.goal
      · have := part.1 (by omega)
        exact .inl (by dsimp only; omega)
      · have := part.2 (by omega)
        exact .inr (by dsimp only; omega)

theorem glideBetween_kept : RenderKept RenderRecord.GlideBetween where
  takeGoal r plan dev g _ := .takeGoal r plan dev g
  loseTarget _ _ := .of_none rfl
  enable _ _ h := h
  atReset := .of_none rfl
  retest r c h := h.same (by simp) (by simp)
  cut _ h := h
  hopWork r follow dev h := h.glideStep.same (by simp [RenderRecord.hopWork]) (by simp [RenderRecord.hopWork])
  fadeStep r h := h.same (by simp) (by simp)
  takeBoundary r h := h.same (by simp) (by simp)
  grainFrame r n h := h.same (by simp) (by simp)

/-- Settles O54: every move of a renderer record keeps each of the three. -/
theorem rendererRecordsStayInRange : Obligations.RendererRecordsStayInRange := by
  intro s t e
  have kept {R : RenderRecord → Prop} (k : RenderKept R) : s.Voices (fun v => R v.ren) → t.Voices fun v => R v.ren :=
    fun h => k.voiceKept.kept.step s t h e
  exact ⟨kept shiftsInRange_kept, kept fadePlaced_kept, kept glideBetween_kept⟩

end Sys2Proof.Machine


/-! ## Voices follow the sound condition, and are IDLE while silenced (R137, R140) -/

namespace Sys2Proof.Machine

theorem Quad.all_iff_get {α : Type} {p : α → Prop} {q : Quad α} : q.All p ↔ ∀ i, p (q.get i) :=
  ⟨Quad.All.get, fun h => ⟨h 0, h 1, h 2, h 3⟩⟩

/-! ### A voice that is cut (R140) -/

/-- R140, Table 8.5: IDLE at fade position 0, with no ramp left to run. -/
def RenderRecord.Silent (r : RenderRecord) : Prop := r.state = .idle ∧ r.fade = 0 ∧ r.fadeOld = 0

theorem RenderRecord.Silent.same {r q : RenderRecord} (h : r.Silent) (state : q.state = r.state) (fade : q.fade = r.fade)
    (old : q.fadeOld = r.fadeOld) : q.Silent := by
  rw [RenderRecord.Silent, state, fade, old]
  exact h

theorem RenderRecord.cut_silent (r : RenderRecord) : r.cut.Silent := ⟨rfl, rfl, rfl⟩

theorem RenderRecord.Silent.retest_false {r : RenderRecord} (h : r.Silent) : (r.retest false).Silent := by
  rwa [RenderRecord.retest_false_silent (.inl h.1)]

theorem RenderRecord.Silent.fadeStep {r : RenderRecord} (h : r.Silent) : r.fadeStep.Silent := by
  obtain ⟨idle, fade, -⟩ := h
  simp [RenderRecord.Silent, RenderRecord.fadeStep_eq, idle, fade]

/-- The resolver moves no fade. -/
theorem silent_handed : HandedKept RenderRecord.Silent where
  takeGoal r plan dev g h := h.same (by simp) (by simp) (by simp)
  loseTarget _ h := h
  enable _ _ h := h

/-! ### Moves between two tests of the sound condition -/

/-- R137, R138: the record `q` stands to its sound condition as the record `r` did, and is cut if that was. -/
structure RenderRecord.Carries (r q : RenderRecord) : Prop where
  silent : r.Silent → q.Silent
  enable : q.enable = r.enable
  hasTarget : q.hasTarget = r.hasTarget
  sounds : (q.state = .rising ∨ q.state = .sounding) ↔ (r.state = .rising ∨ r.state = .sounding)

section
variable (r : RenderRecord)

theorem RenderRecord.hopWork_carries (follow : Bool) (dev : Int) : r.Carries (r.hopWork follow dev) where
  silent h := h.same (by simp) (by simp) (by simp)
  enable := by simp
  hasTarget := by
    rw [RenderRecord.hopWork, RenderRecord.formShift_hasTarget]
    cases glide : r.glide with
    | none => rw [RenderRecord.glideStep_none glide]
    | some q => rw [RenderRecord.glideStep_running glide]
  sounds := by simp

/-- R138: a rise that ends goes on sounding, and a fall that ends goes on silent. -/
theorem RenderRecord.fadeStep_carries : r.Carries r.fadeStep where
  silent h := h.fadeStep
  enable := by simp
  hasTarget := by simp
  sounds := by
    rw [RenderRecord.fadeStep_eq]
    split
    next rising => by_cases top : 6 ≤ r.fade <;> simp [rising, top]
    next falling => by_cases bottom : r.fade ≤ 1 <;> simp [falling, bottom]
    next => rfl

theorem RenderRecord.takeBoundary_carries : r.Carries r.takeBoundary where
  silent h := h.same (by simp) (by simp) (by simp)
  enable := by simp
  hasTarget := by obtain ⟨d, _, _, e⟩ | ⟨_, e⟩ := r.takeBoundary_cases <;> rw [e]
  sounds := by simp

theorem RenderRecord.grainFrame_carries (n : Nat) : r.Carries (r.grainFrame n) where
  silent h := h.same (by simp) (by simp) (by simp)
  enable := by simp
  hasTarget := by simp
  sounds := by simp

theorem RenderRecord.Carries.refl : r.Carries r := ⟨id, rfl, rfl, Iff.rfl⟩

variable {r} {q x : RenderRecord}

theorem RenderRecord.Carries.trans (h : r.Carries q) (g : q.Carries x) : r.Carries x :=
  ⟨g.silent ∘ h.silent, g.enable.trans h.enable, g.hasTarget.trans h.hasTarget, g.sounds.trans h.sounds⟩

end

/-! ### What the part lets be heard (R137, R140) -/

/-- The two items of the part that a voice's fade hangs on: whether the terms of a sound condition hold that are not the voice's
own (R137), and whether the part is silenced (R140). -/
def State.hearing (s : State) : Bool × Bool := (s.noteTerm && s.fault.output == .run && s.ctx.hush.isNone, s.silenced)

section
variable {s t : State}

theorem State.soundCondition_hearing (s : State) (r : RenderRecord) : s.soundCondition r = (r.enable && r.hasTarget && s.hearing.1) := by
  simp [State.soundCondition, State.hearing, Bool.and_assoc]

theorem State.silenced_of_hearing (h : t.hearing = s.hearing) : t.silenced = s.silenced := congrArg Prod.snd h

theorem State.soundCondition_of_hearing (h : t.hearing = s.hearing) (r : RenderRecord) : t.soundCondition r = s.soundCondition r := by
  rw [State.soundCondition_hearing, State.soundCondition_hearing, h]

/-- R137, R140: while the part is silenced every sound condition fails. -/
theorem State.soundCondition_of_silenced (h : s.silenced = true) (r : RenderRecord) : s.soundCondition r = false := by
  simp only [State.silenced, Bool.or_eq_true, beq_iff_eq] at h
  obtain bypass | hush := h
  · exact State.soundCondition_of_output (by simp [bypass]) r
  · simp [State.soundCondition, Option.isNone_eq_false_iff.mpr hush]

theorem State.hearing_eq (decider : t.decider = s.decider) (note : t.due.note = s.due.note)
    (fault : t.fault.unflagged = s.fault.unflagged) (hush : t.ctx.hush = s.ctx.hush) : t.hearing = s.hearing := by
  obtain ⟨output, -⟩ := FaultMonitor.of_unflagged fault
  simp [State.hearing, State.silenced, State.noteTerm, Due.noteOnWaits, decider, note, output, hush]

end

section
variable (s : State)

@[simp] theorem State.raiseIf_hearing (c : Bool) (f : Flag) : (s.raiseIf c f).hearing = s.hearing := by cases c <;> rfl

@[simp] theorem State.appendQueue_hearing (e : QueueEntry) : (s.appendQueue e).hearing = s.hearing := by
  obtain ⟨_, e⟩ | ⟨_, e⟩ := s.appendQueue_cases e <;> rw [e] <;> rfl

@[simp] theorem State.writeKey_hearing (v : Fin 12) (x : Source) (p : Bool) : (s.writeKey v x p).1.hearing = s.hearing :=
  State.raiseIf_hearing _ _ _

@[simp] theorem State.writeScale_hearing (v : Fin 8) (x : Source) (p : Bool) : (s.writeScale v x p).1.hearing = s.hearing := rfl

@[simp] theorem State.writeChord_hearing (v : Option Chord) (x : Source) (p : Bool) : (s.writeChord v x p).1.hearing = s.hearing := rfl

@[simp] theorem State.autoKey_hearing (v : Fin 12) (a : Auto) : (s.autoKey v a).hearing = s.hearing := s.writeKey_hearing _ _ _

@[simp] theorem State.autoScale_hearing (v : Fin 8) (a : Auto) : (s.autoScale v a).hearing = s.hearing := rfl

@[simp] theorem State.autoChord_hearing (v : Option Chord) (a : Auto) : (s.autoChord v a).hearing = s.hearing := rfl

@[simp] theorem State.setSwitches_hearing (w : BitVec 8) : (s.setSwitches w).hearing = s.hearing :=
  State.hearing_eq (by simp) (by simp) (by simp) (by simp)

@[simp] theorem State.takeHead_hearing (t : Trigger) : (s.takeHead t).hearing = s.hearing := by rw [State.takeHead_eq]; rfl

@[simp] theorem State.lossActions_hearing (c : LineCondition) : (s.lossActions c).hearing = s.hearing := by
  cases c <;> simp only [State.lossActions, State.breakAction] <;> first
    | rfl
    | split <;> rfl

@[simp] theorem State.stepWritten_hearing (c : CueStep) : ((s.writeStepFields c).writeStepSwitches c).hearing = s.hearing := by
  rw [State.writeStepFields_eq]
  exact State.setSwitches_hearing _ _

@[simp] theorem State.stageStep_hearing (c : CueStep) (h : Handing) : (s.stageStep c h).hearing = s.hearing :=
  State.hearing_eq (by simp) (by simp) (by simp) (by simp)

@[simp] theorem State.enterStepHeld_hearing (k : Fin 64) : (s.enterStepHeld k).hearing = s.hearing :=
  (State.stageStep_hearing _ _ _).trans (s.stepWritten_hearing _)

@[simp] theorem State.cueOnset_hearing : s.cueOnset.hearing = s.hearing := by
  simp only [State.cueOnset, State.advanceHeld]
  (repeat' split) <;> first
    | rfl
    | exact s.enterStepHeld_hearing _

@[simp] theorem State.retest_hearing : s.retest.hearing = s.hearing := rfl

@[simp] theorem State.causeClears_hearing (k : Cause) : (s.causeClears k).hearing = s.hearing := by
  simp only [State.causeClears]
  split
  next named =>
    have run : (OutputState.degraded k == .run) = false := by cases k <;> rfl
    have bypass : (OutputState.degraded k == .bypass) = false := by cases k <;> rfl
    have recovering : (OutputState.recovering == .run) = false := rfl
    have silent : (OutputState.recovering == .bypass) = false := rfl
    simp [State.hearing, State.silenced, State.noteTerm, named, run, bypass, recovering, silent]
  next => rfl

theorem State.takeEvaluation_note : s.takeEvaluation.due.note = s.due.note := by
  simp only [State.takeEvaluation, State.evaluation]
  (repeat' split) <;> rfl

theorem State.answerKeytrack_note (b : KeytrackBytes) (c : Bool) : (s.answerKeytrack b c).1.due.note = s.due.note := by
  simp only [State.answerKeytrack, answer]
  split <;> rfl

theorem State.answerHowl_hearing (e : Byte) (w : BitVec 16) : (s.answerHowl e w).1.hearing = s.hearing := by
  simp only [State.answerHowl, answer]
  (repeat' split) <;> rfl

end

/-! ### Tests of the sound condition -/

section
variable {s t : State}

theorem State.SilencedIdle.moved (h : s.SilencedIdle) (silenced : t.silenced = true → s.silenced = true)
    (voices : ∀ i, (s.voices.get i).ren.Silent → (t.voices.get i).ren.Silent) : t.SilencedIdle :=
  fun quiet => Quad.all_iff_get.mpr fun i => voices i (Quad.All.get (h (silenced quiet)) i)

theorem State.SilencedIdle.same (h : s.SilencedIdle) (silenced : t.silenced = true → s.silenced = true) (voices : t.voices = s.voices) :
    t.SilencedIdle := h.moved silenced fun i => by rw [voices]; exact id

/-- R137, R140: while the part is silenced a test starts no voice. -/
theorem State.SilencedIdle.retest (h : s.SilencedIdle) : s.retest.SilencedIdle := by
  intro quiet
  refine Quad.all_iff_get.mpr fun i => ?_
  rw [State.retest_get, State.soundCondition_of_silenced (s := s) quiet]
  exact RenderRecord.Silent.retest_false (Quad.All.get (h quiet) i)

theorem State.SilencedIdle.of_cut (voices : ∀ i, (t.voices.get i).ren.Silent) : t.SilencedIdle :=
  fun _ => Quad.all_iff_get.mpr voices

theorem State.soundFollows_iff (s : State) :
    s.SoundFollows ↔ ∀ i, ((s.voices.get i).ren.state = .rising ∨ (s.voices.get i).ren.state = .sounding) ↔
      s.soundCondition (s.voices.get i).ren = true := Quad.all_iff_get

/-- R137: a test reads no item of a voice that it writes. -/
theorem State.soundCondition_retest (s : State) (r : RenderRecord) (c : Bool) : s.soundCondition (r.retest c) = s.soundCondition r := by
  simp [State.soundCondition]

/-- R137: the test of a voice has it sound exactly while its sound condition holds. -/
theorem State.retest_soundFollows (s : State) : s.retest.SoundFollows := by
  refine (State.soundFollows_iff _).mpr fun i => ?_
  rw [State.retest_get, State.soundCondition_of_hearing s.retest_hearing, State.soundCondition_retest]
  exact RenderRecord.retest_sounds _ _

end

/-! ### The two properties, kept side by side -/

/-- R137 and R140: what a run keeps of the voices, each part for the states of a run that began with it. -/
def State.VoicesFollow (silence sound : Prop) (s : State) : Prop := (silence → s.SilencedIdle) ∧ (sound → s.SoundFollows)

section
variable {silence sound : Prop} {s t : State}

theorem State.VoicesFollow.carried (h : s.VoicesFollow silence sound) (hearing : t.hearing = s.hearing)
    (voices : ∀ i, (s.voices.get i).ren.Carries (t.voices.get i).ren) : t.VoicesFollow silence sound := by
  refine ⟨fun a => (h.1 a).moved (fun quiet => State.silenced_of_hearing hearing ▸ quiet) fun i => (voices i).silent, fun b => ?_⟩
  refine (State.soundFollows_iff _).mpr fun i => ?_
  obtain ⟨-, enable, target, sounds⟩ := voices i
  rw [sounds, (State.soundFollows_iff s).mp (h.2 b) i, State.soundCondition_hearing, State.soundCondition_hearing, hearing, enable, target]

theorem State.VoicesFollow.same (h : s.VoicesFollow silence sound) (hearing : t.hearing = s.hearing) (voices : t.voices = s.voices) :
    t.VoicesFollow silence sound := h.carried hearing fun i => by rw [voices]; exact .refl _

/-- R137: whatever a test finds, it leaves each voice as its sound condition has it. -/
theorem State.VoicesFollow.tested (h : silence → s.SilencedIdle) : s.retest.VoicesFollow silence sound :=
  ⟨fun a => (h a).retest, fun _ => s.retest_soundFollows⟩

/-- R117, R129, R137: a publication ends with a test. -/
theorem State.VoicesFollow.delivered (h : silence → s.SilencedIdle) (p : Publication) : (s.deliver p).VoicesFollow silence sound := by
  refine State.VoicesFollow.tested fun a => (h a).moved id fun i cut => ?_
  rw [Quad.mapIdx_get]
  exact silent_handed.afterPublication cut _ _ _

/-- R70: the CONTEXT publication of a change that leaves what is heard, and the voices. -/
theorem State.VoicesFollow.published (h : s.VoicesFollow silence sound) (hearing : t.hearing = s.hearing) (voices : t.voices = s.voices)
    (b : Bool) : (t.publishChanges s.ctx b).VoicesFollow silence sound := by
  have before := h.same hearing voices
  obtain ⟨_, e⟩ | ⟨_, e⟩ := t.publishChanges_cases s.ctx b <;> rw [e]
  · exact before
  · exact .delivered before.1 _

/-! ### Cue steps and note operations -/

theorem HandedKept.stageStep {R : RenderRecord → Prop} (k : HandedKept R) (c : CueStep) (x : Handing) (i : Fin 4)
    (h : R (s.voices.get i).ren) : R ((s.stageStep c x).voices.get i).ren := by
  rw [State.stageStep_voice, Voice.stageAll]
  generalize s.voices.get i = v at h
  induction c.bindings generalizing v with
  | nil => exact h
  | cons b l ih =>
    refine ih _ ?_
    dsimp only
    split
    · exact k.stage h _ _ _ _
    · exact h

theorem State.VoicesFollow.enterStep (h : s.VoicesFollow silence sound) (k : Fin 64) : (s.enterStep k).VoicesFollow silence sound := by
  have published := h.published (s.stepWritten_hearing (s.tables.cueStep k)) (by simp) false
  have tested : (State.retest _).VoicesFollow silence sound := State.VoicesFollow.tested fun a =>
    (published.1 a).moved (fun quiet => State.silenced_of_hearing (State.stageStep_hearing _ (s.tables.cueStep k) .next) ▸ quiet)
      fun i => silent_handed.stageStep _ _ i
  exact tested.same rfl rfl

theorem State.VoicesFollow.advance (h : s.VoicesFollow silence sound) : s.advance.VoicesFollow silence sound := by
  simp only [State.advance]
  split
  · exact h
  split
  · exact h.enterStep _
  · exact h.same rfl rfl

/-- R149, R153: within a note-start operation the stagings are held, and leave the renderer. -/
theorem State.cueOnset_ren (s : State) (i : Fin 4) : (s.cueOnset.voices.get i).ren = (s.voices.get i).ren := by
  simp only [State.cueOnset, State.advanceHeld]
  (repeat' split) <;> first
    | rfl
    | simp [State.enterStepHeld_voice]

theorem State.noteTaken_silenced (s : State) : s.noteTaken.silenced = s.silenced := rfl

theorem State.noteTaken_voices (s : State) : s.noteTaken.voices = s.voices := rfl

theorem State.VoicesFollow.noteStart (h : s.VoicesFollow silence sound) (k : PublicationKind) : (s.noteStart k).VoicesFollow silence sound := by
  rw [State.noteStart_delivers]
  refine .delivered (fun a => (h.1 a).moved (fun quiet => ?_) fun i cut => ?_) _
  · rwa [State.noteTaken_silenced, State.silenced_of_hearing (State.cueOnset_hearing _),
      State.silenced_of_hearing (s.takeHead_hearing .onset)] at quiet
  · have ren : ((s.takeHead .onset).cueOnset.noteTaken.voices.get i).ren = (s.voices.get i).ren := by
      rw [State.noteTaken_voices, State.cueOnset_ren]; simp
    rwa [ren]

theorem State.VoicesFollow.noteOff (h : s.VoicesFollow silence sound) (n : Nat) : (s.noteOff n).VoicesFollow silence sound := by
  refine State.VoicesFollow.delivered (s := (s.takeHead .phrase).noteTaken) (fun a => (h.1 a).same (fun quiet => ?_) ?_) _
  · rwa [State.noteTaken_silenced, State.silenced_of_hearing (s.takeHead_hearing .phrase)] at quiet
  · rw [State.noteTaken_voices]; simp

/-! ### The chord line -/

theorem State.VoicesFollow.handCondition (h : s.VoicesFollow silence sound) (c : LineCondition) :
    (s.handCondition c).VoicesFollow silence sound := by
  simp only [State.handCondition]
  split
  · exact h
  · exact h.published (by exact s.lossActions_hearing c) (by simp) false

theorem State.VoicesFollow.deriveCondition (h : s.VoicesFollow silence sound) : s.deriveCondition.VoicesFollow silence sound :=
  h.handCondition _

theorem State.VoicesFollow.chordAt (h : s.VoicesFollow silence sound) (v : Option Chord) (a : ApplyAt) :
    (s.chordAt v a).VoicesFollow silence sound := by
  cases a with
  | now => exact h.published (by exact State.autoChord_hearing _ _ _) (by simp) false
  | onset => exact h.same (State.appendQueue_hearing _ _) (by simp [State.chordAt])
  | phrase => exact h.same (State.appendQueue_hearing _ _) (by simp [State.chordAt])

theorem State.VoicesFollow.frameContent (h : s.VoicesFollow silence sound) (c : FrameContent) :
    (s.frameContent c).VoicesFollow silence sound := by
  cases c with
  | chord v a => exact h.chordAt v a
  | notes a l => exact h
  | key k x => exact h.published (by simp) (by simp) false
  | alive => exact h

theorem State.VoicesFollow.validFrame (h : s.VoicesFollow silence sound) (c : FrameContent) :
    (s.validFrame c).VoicesFollow silence sound := by
  have derived : (State.deriveCondition
      { s with line := { s.line with assembler := .hunt, silence := 0, frameSeen := true, broken := false } }).VoicesFollow silence sound :=
    State.VoicesFollow.deriveCondition (by exact h)
  simp only [State.validFrame]
  split
  · exact derived.frameContent c
  · exact derived

theorem State.VoicesFollow.completeFrame (h : s.VoicesFollow silence sound) (k : FrameKind) (d : List Byte) :
    (s.completeFrame k d).VoicesFollow silence sound := by
  simp only [State.completeFrame]
  split
  · exact h.validFrame _
  · exact h.same rfl rfl

theorem State.VoicesFollow.huntChar (h : s.VoicesFollow silence sound) (c : LineChar) : (s.huntChar c).VoicesFollow silence sound := by
  simp only [State.huntChar, State.takeHeader]
  (repeat' split) <;> first
    | exact h.completeFrame _ _
    | exact h.same rfl rfl

theorem State.VoicesFollow.frameChar (h : s.VoicesFollow silence sound) (k : FrameKind) (n : Nat) (d : List Byte) (c : LineChar) :
    (s.frameChar k n d c).VoicesFollow silence sound := by
  simp only [State.frameChar]
  (repeat' split) <;> first
    | exact h.huntChar c
    | exact h.completeFrame _ _
    | exact State.VoicesFollow.huntChar (s := s.raise .frameDrop) (h.same rfl rfl) c
    | exact h.same rfl rfl

theorem State.VoicesFollow.takeChar (h : s.VoicesFollow silence sound) : s.takeChar.VoicesFollow silence sound := by
  simp only [State.takeChar]
  (repeat' split) <;> first
    | exact h
    | exact State.VoicesFollow.huntChar (by exact h) _
    | exact State.VoicesFollow.frameChar (by exact h) _ _ _ _

theorem State.VoicesFollow.drain (n : Nat) (h : s.VoicesFollow silence sound) : (State.drain n s).VoicesFollow silence sound := by
  induction n generalizing s with
  | zero => exact h
  | succ n ih => exact ih h.takeChar

theorem State.VoicesFollow.receive (h : s.VoicesFollow silence sound) (c : LineChar) : (s.receive c).VoicesFollow silence sound := by
  simp only [State.receive]
  split
  · exact .drain 2 h
  · exact h.same rfl rfl

theorem State.VoicesFollow.character (h : s.VoicesFollow silence sound) (s1 s2 s3 : BitVec 12) :
    (s.character s1 s2 s3).VoicesFollow silence sound := by
  simp only [State.character]
  split
  · exact h
  split
  · exact h.same (State.raiseIf_hearing _ _ _) (by simp)
  · exact State.VoicesFollow.receive (by exact h.same (State.raiseIf_hearing _ _ _) (by simp)) _

theorem State.VoicesFollow.matchEnd (h : s.VoicesFollow silence sound) : s.matchEnd.VoicesFollow silence sound := by
  simp only [State.matchEnd]
  split
  · exact h
  next m _ =>
    have handled : (State.matchOutcome { s with matcher := none } m).VoicesFollow silence sound := by
      simp only [State.matchOutcome]
      split
      · exact h
      split
      · exact h
      · exact State.VoicesFollow.chordAt (by exact h) _ _
    exact .drain 2 handled

theorem State.VoicesFollow.lineChanged (h : s.VoicesFollow silence sound) (o : LineSettings) :
    (s.lineChanged o).VoicesFollow silence sound := by
  simp only [State.lineChanged]
  (repeat' split) <;> first
    | exact State.VoicesFollow.handCondition (s := State.flushQueue _) h _
    | exact State.VoicesFollow.handCondition (by exact h) _
    | exact h

/-- R63: a manual switch write. -/
theorem State.VoicesFollow.switchWrite (h : s.VoicesFollow silence sound) (w m : BitVec 8) :
    (s.switchWrite w m).1.VoicesFollow silence sound := h.published (s.setSwitches_hearing w) (by simp) false

/-! ### Fault causes, measurements and hops -/

theorem State.enterBypass_silent (s : State) (i : Fin 4) : (s.enterBypass.voices.get i).ren.Silent := by
  simpa [State.enterBypass, State.cutVoices] using RenderRecord.cut_silent _

/-- R140, R176: a cause's appearance enters BYPASS with a cut, and otherwise leaves the voices. -/
theorem State.SilencedIdle.causeAppears (h : s.SilencedIdle) (k : Cause) : (s.causeAppears k).SilencedIdle := by
  obtain ⟨_, e⟩ | ⟨_, e⟩ | ⟨_, e⟩ := s.causeAppears_cases k <;> rw [e]
  · exact h.same (fun quiet => by simpa [State.silenced] using .inr (by simpa [State.silenced] using quiet)) rfl
  · exact h
  · exact .of_cut s.enterBypass_silent

theorem State.SilencedIdle.howlAppears (h : s.SilencedIdle) : s.howlAppears.SilencedIdle := by
  simp only [State.howlAppears]
  split
  · exact h
  · exact State.SilencedIdle.causeAppears (by exact h) _

/-- R173: an entry of the decider to SILENT silences nothing. -/
theorem State.howlSilent_silenced (s : State) : s.howlSilent.silenced = s.silenced := by
  simp only [State.howlSilent]
  split
  · exact State.silenced_of_hearing (State.causeClears_hearing _ _)
  · rfl

theorem State.lossHeard_silenced (s : State) : s.lossHeard.silenced = s.silenced := by
  have failed : s.lossHeard.hearing = (State.forceSilent { s with rate := s.rate.lose }).hearing := State.raiseIf_hearing _ _ _
  rw [State.silenced_of_hearing failed, State.forceSilent, State.howlSilent_silenced]
  rfl

theorem State.VoicesFollow.rateLoss (h : s.VoicesFollow silence sound) : s.rateLoss.VoicesFollow silence sound := by
  rw [State.rateLoss_eq]
  exact .tested fun a => ((h.1 a).same (fun quiet => s.lossHeard_silenced ▸ quiet) s.lossHeard_voices).causeAppears .rate

theorem State.VoicesFollow.measure (h : s.VoicesFollow silence sound) (m : Nat) : (s.measure m).1.VoicesFollow silence sound := by
  simp only [State.measure, State.measureAcquiring, State.measureLocked]
  (repeat' split) <;> first
    | exact h
    | exact h.rateLoss
    | exact h.same (State.causeClears_hearing _ _) (by simp)
    | exact h.same (State.raiseIf_hearing _ _ _) (by simp)

theorem State.VoicesFollow.rateAbsence (h : s.VoicesFollow silence sound) : s.rateAbsence.VoicesFollow silence sound := by
  simp only [State.rateAbsence]
  split <;> first
    | exact h
    | exact h.rateLoss

/-- R173, R176: a hop silences nothing. -/
theorem State.hop_silenced (s : State) (a : Analysis) (o : RenderOrder) : (s.hop a o).silenced = s.silenced := by
  have hop : (s.hop a o).fault = _ := (Prod.ext_iff.mp (s.hop_howl a o)).1
  have output : (s.silencedFault a).output = .bypass ↔ s.fault.output = .bypass := by
    simp only [State.silencedFault, FaultMonitor.atHop]
    (repeat' split) <;> simp_all
  have kept : (s.hop a o).fault.output = (s.silencedFault a).output := by
    rw [hop]
    simp only [FaultMonitor.howlReport]
    (repeat' split) <;> rfl
  rw [Bool.eq_iff_iff]
  simp [State.silenced, kept, output]

/-- R131, R139: the rendering of a hop leaves a voice that is cut as it is. -/
theorem State.worked_silent (s : State) (a : Analysis) (o : RenderOrder) {v : Voice} (h : v.ren.Silent) : (s.worked a o v).Silent := by
  cases o
  case last => exact h.fadeStep
  all_goals exact (RenderRecord.hopWork_carries _ _ _).silent h.fadeStep

/-- R137: a hop ends with a test. -/
theorem State.VoicesFollow.hop (h : s.VoicesFollow silence sound) (a : Analysis) (o : RenderOrder) :
    (s.hop a o).VoicesFollow silence sound := by
  refine ⟨fun x quiet => Quad.all_iff_get.mpr fun i => ?_, fun _ => (State.soundFollows_iff _).mpr fun i => ?_⟩
  · rw [State.hop_voice, State.soundCondition_of_silenced quiet]
    rw [State.hop_silenced] at quiet
    exact (s.worked_silent a o (Quad.All.get (h.1 x quiet) i)).retest_false
  · rw [State.hop_voice, State.soundCondition_retest]
    exact RenderRecord.retest_sounds _ _

/-- R135, R136: a frame takes grain boundaries and then moves grain timers. -/
theorem State.nextFrame_ren (s : State) (w : SlotWord) (b : Nat) (i : Fin 4) :
    ((s.nextFrame w b).voices.get i).ren = (s.voices.get i).ren.takeBoundary.grainFrame s.renderer.grainLength := by
  simp [State.nextFrame, State.takeBoundaries, State.moveSamples, State.beginFrame]

theorem State.nextFrame_carries (s : State) (w : SlotWord) (b : Nat) (i : Fin 4) :
    (s.voices.get i).ren.Carries ((s.nextFrame w b).voices.get i).ren := by
  rw [State.nextFrame_ren]
  exact (RenderRecord.takeBoundary_carries _).trans (RenderRecord.grainFrame_carries _ _)

theorem State.nextFrame_hearing (s : State) (w : SlotWord) (b : Nat) : (s.nextFrame w b).hearing = s.hearing :=
  State.hearing_eq (by simp) (by simp only [State.nextFrame, State.countFade]; (repeat' split) <;> rfl) (by simp) (by simp)

end

/-! ### Every step -/

theorem voicesFollow_kept (silence sound : Prop) : Kept (State.VoicesFollow silence sound) := by
  constructor
  case powerOn =>
    intro s sa _
    obtain ⟨_, _, _, _, _, _, _, _, silent, follows, _⟩ := resetMeetsEveryInvariant sa
    exact ⟨fun _ => silent, fun _ => follows⟩
  case takeHowl =>
    intro s h
    simp only [State.takeHowl]
    split
    · exact .tested fun a => State.SilencedIdle.howlAppears (by exact h.1 a)
    · exact h
  case takeRecovery =>
    intro s h
    simp only [State.takeRecovery]
    (repeat' split) <;> first
      | exact h
      | exact .tested fun a => (h.1 a).same (fun quiet => by simpa [State.silenced] using .inr (by simpa [State.silenced] using quiet)) rfl
  case takeNoteStart =>
    intro s h
    simp only [State.takeNoteStart]
    split
    · exact h.noteStart _
    · exact h
  case takeNoteOff =>
    intro s h
    simp only [State.takeNoteOff]
    split <;> first
      | exact h.noteOff _
      | exact h
  case takeProposal =>
    intro s h
    obtain ⟨_, e⟩ | ⟨k, _, e⟩ := s.takeProposal_cases <;> rw [e]
    · exact h
    · exact h.published (by exact State.autoKey_hearing _ _ _) (by simp) false
  case takeDwell =>
    intro s h
    simp only [State.takeDwell]
    split
    · exact State.VoicesFollow.advance (by exact h)
    · exact h
  case takeSilence =>
    intro s h
    simp only [State.takeSilence]
    split
    · exact State.VoicesFollow.deriveCondition (by exact h)
    · exact h
  case takeFadeStep =>
    intro s h
    simp only [State.takeFadeStep]
    split
    · exact h.carried rfl fun i => by rw [State.fadeStep_get]; exact RenderRecord.fadeStep_carries _
    · exact h
  case takeRender =>
    intro s h
    simp only [State.takeRender]
    split
    · exact h.carried rfl fun i => by rw [State.hopWork_get]; exact RenderRecord.hopWork_carries _ _ _
    · exact h
  case takeBoundary =>
    intro s j h
    refine h.carried rfl fun i => ?_
    simp only [State.takeBoundary, Quad.update_get]
    split
    · exact RenderRecord.takeBoundary_carries _
    · exact .refl _
  case nextFrame => intro s w b h; exact h.carried (s.nextFrame_hearing w b) (s.nextFrame_carries w b)
  case absence =>
    intro s h
    simp only [State.absence]
    split
    · exact State.VoicesFollow.rateAbsence (by exact h)
    · exact h
  case measurement =>
    intro s m a o h
    simp only [State.measurement]
    (repeat' split) <;> first
      | exact h
      | exact (State.VoicesFollow.measure (by exact h) m).hop a o
      | exact State.VoicesFollow.measure (by exact h) m
  case character => intro s s1 s2 s3 h; exact h.character s1 s2 s3
  case lineBreak =>
    intro s h
    simp only [State.lineBreak]
    split
    · exact State.VoicesFollow.deriveCondition (by exact h)
    · exact h
  case matchEnd => intro s h; exact h.matchEnd
  case setkey =>
    intro s src k p h
    simp only [State.answerSetkey, answer]
    split
    · exact h.published (by simp) (by simp) false
    · exact h
  case setscale =>
    intro s src k p h
    simp only [State.answerSetscale, answer]
    (repeat' split) <;> first
      | exact h
      | exact h.published (by simp) (by simp) false
  case setchord =>
    intro s src p b h
    simp only [State.answerSetchord, State.answerChordWrite, answer]
    (repeat' split) <;> first
      | exact h
      | exact h.published (by simp) (by simp) false
  case unpin =>
    intro s src f h
    simp only [State.answerUnpin, unpinAnswer, answer]
    (repeat' split) <;> first
      | exact h
      | exact h.published (by exact State.raiseIf_hearing _ _ _) (by simp) false
      | exact h.published (by rfl) (by rfl) _
  case put => intro s src arg h; exact h.switchWrite _ _
  case set => intro s src arg h; exact h.switchWrite _ _
  case clear => intro s src arg h; exact h.switchWrite _ _
  case hush =>
    intro s src h
    cases free : s.ctx.hush with
    | none =>
      rw [State.answerHush_takes free]
      have silent : ∀ i, ((State.cutVoices { s with ctx := { s.ctx with hush := some src } }).voices.get i).ren.Silent := fun i => by
        simpa [State.cutVoices] using RenderRecord.cut_silent _
      refine ⟨fun _ => .of_cut silent, fun _ => (State.soundFollows_iff _).mpr fun i => ?_⟩
      rw [(silent i).1, State.soundCondition_of_silenced (by simp [State.silenced])]
      simp
    | some y => rwa [State.answerHush_masked free]
  case resume =>
    intro s src h
    simp only [State.answerResume, answer]
    (repeat' split) <;> first
      | exact h
      | exact .tested fun a => (h.1 a).same (fun quiet => by simpa [State.silenced] using .inl (by simpa [State.silenced] using quiet)) rfl
  case cuenext =>
    intro s h
    simp only [State.answerCuenext, navigated, answer]
    (repeat' split) <;> first
      | exact h
      | exact h.enterStep _
  case cueprev =>
    intro s h
    simp only [State.answerCueprev, navigated, answer]
    (repeat' split) <;> first
      | exact h
      | exact h.enterStep _
  case cuegoto =>
    intro s k h
    simp only [State.answerCuegoto, navigated, answer]
    (repeat' split) <;> first
      | exact h
      | exact h.enterStep _
  case loadscale =>
    intro s k m r h
    simp only [State.answerLoadscale, answer]
    (repeat' split) <;> first
      | exact h
      | exact h.published (by rfl) (by rfl) _
  case loadshape =>
    intro s k m h
    simp only [State.answerLoadshape, answer]
    (repeat' split) <;> first
      | exact h
      | exact h.published (by rfl) (by rfl) _
  case loadplan =>
    intro s k b a h
    simp only [State.answerLoadplan, answer]
    split
    · refine .tested fun x => (h.1 x).moved id fun i cut => ?_
      simp only [State.stageLoad, Quad.mapIdx_get]
      split
      · exact silent_handed.stage cut _ _ _ _
      · exact cut
    · exact h
  case bind =>
    intro s v k a h
    simp only [State.answerBind, answer]
    split
    · refine .tested fun x => (h.1 x).moved id fun i cut => ?_
      simp only [State.stageOn, Quad.update_get]
      split
      · exact silent_handed.stage cut _ _ _ _
      · exact cut
    · exact h
  case clearfault =>
    intro s h
    have run : s.enterRun.VoicesFollow silence sound :=
      .tested fun a => (h.1 a).same (fun quiet => by simpa [State.silenced] using .inr (by simpa [State.silenced] using quiet)) rfl
    simp only [State.answerClearfault]
    (repeat' split) <;> first
      | exact h
      | exact run
  case line =>
    intro s b e h
    simp only [State.answerLine, answer, State.lineThresholds]
    (repeat' split) <;> first
      | exact h
      | exact State.VoicesFollow.deriveCondition (.lineChanged (by exact h) _)
      | exact State.VoicesFollow.lineChanged (by exact h) _
  case restart =>
    intro s h
    have reset : s.resetRuntime.SilencedIdle :=
      .of_cut (Quad.all_iff_get.mp (voicesAtReset_all (Q := fun v => v.ren.Silent) fun slot => ⟨rfl, rfl, rfl⟩))
    have published : (s.resetRuntime.publish .context (s.ctx.changes .atReset false)).VoicesFollow silence sound :=
      .delivered (fun _ => reset) _
    exact published.published (by rfl) (by rfl) false
  case takeEvaluation => intro s h; exact h.same (State.hearing_eq (by simp) s.takeEvaluation_note (by simp) (by simp)) (by simp)
  case locksw => intro s mask h; exact h
  case keytrack =>
    intro s b c h
    exact h.same (State.hearing_eq (by simp) (s.answerKeytrack_note b c) (by simp) (by simp)) (by simp)
  case howl => intro s e w h; exact h.same (s.answerHowl_hearing e w) (by simp)
  all_goals intros; exact State.VoicesFollow.same ‹_› (State.hearing_eq (by simp) (by simp) (by simp) (by simp)) (by simp)

/-- Settles O55: what writes a term of a sound condition ends with a test, and what silences the part cuts the voices. -/
theorem voicesFollowTheSoundCondition : Obligations.VoicesFollowTheSoundCondition := by
  intro s t e
  obtain ⟨silent, follows⟩ := (voicesFollow_kept s.SilencedIdle s.SoundFollows).step s t ⟨id, id⟩ e
  exact ⟨silent, follows⟩

end Sys2Proof.Machine


/-! ## Fade steps, grain boundaries and grain timers (R135, R136, R138, R139) -/

namespace Sys2Proof.Machine

theorem Quad.ext_get {α : Type} {p q : Quad α} (h : ∀ i, p.get i = q.get i) : p = q := by
  cases p; cases q
  exact Quad.mk.injEq .. ▸ ⟨h 0, h 1, h 2, h 3⟩

/-! ### Moves of one voice -/

section
variable {r : RenderRecord}

theorem RenderRecord.takeBoundary_not_due (h : r.boundaryDue = false) : r.takeBoundary = r := by simp [RenderRecord.takeBoundary, h]

/-- R136: a boundary adopts a pending shift. -/
theorem RenderRecord.takeBoundary_adopts {d : Int} (due : r.boundaryDue = true) (pending : r.pending = some d) :
    r.takeBoundary = { r with boundaryDue := false, applied := d, ratio := ratioCode d, pending := none } := by
  simp [RenderRecord.takeBoundary, RenderRecord.adoptShift, due, pending]

theorem RenderRecord.takeBoundary_passes (due : r.boundaryDue = true) (pending : r.pending = none) :
    r.takeBoundary = { r with boundaryDue := false } := by
  simp [RenderRecord.takeBoundary, RenderRecord.adoptShift, due, pending]

theorem RenderRecord.grainFrame_counts {n : Nat} (short : r.timer + 16 < n) : r.grainFrame n = { r with timer := r.timer + 16 } := by
  simp [RenderRecord.grainFrame, Nat.not_le.mpr short]

/-- R135: the timer that reaches the grain length keeps what exceeds it, unless that is a whole grain. -/
theorem RenderRecord.grainFrame_reaches {n : Nat} (reached : ¬ r.timer + 16 < n) :
    r.grainFrame n = { r with timer := if r.timer + 16 - n < n then r.timer + 16 - n else 0, boundaryDue := true } := by
  by_cases within : r.timer + 16 - n < n
  · simp [RenderRecord.grainFrame, Nat.not_lt.mp reached, within, Nat.not_le.mpr within]
  · simp [RenderRecord.grainFrame, Nat.not_lt.mp reached, within, Nat.not_lt.mp within]

/-- R139: a fade step writes the position, the one before it and the state. -/
theorem RenderRecord.fadeStep_writes (r : RenderRecord) :
    r.fadeStep = { r with fadeOld := r.fade, fade := r.fadeStep.fade, state := r.fadeStep.state } := by
  rw [RenderRecord.fadeStep_eq]
  cases r.state <;> simp

end

/-! ### Fade steps and boundaries as events -/

theorem State.takeFadeStep_due {s : State} (h : s.due.fadeStep = true) :
    s.takeFadeStep = State.fadeStep { s with due := { s.due with fadeStep := false } } := by simp [State.takeFadeStep, h]

theorem State.takeBoundary_get (s : State) (i j : Fin 4) :
    (s.takeBoundary i).voices.get j =
      if j = i then { s.voices.get j with ren := (s.voices.get j).ren.takeBoundary } else s.voices.get j := Quad.update_get _ _ _ _

/-- R136: with no boundary due, the taking of one is idle. -/
theorem State.takeBoundary_not_due {s : State} {i : Fin 4} (h : (s.voices.get i).ren.boundaryDue = false) : s.takeBoundary i = s := by
  have voices : (s.takeBoundary i).voices = s.voices := Quad.ext_get fun j => by
    rw [State.takeBoundary_get]
    split
    next e => rw [e, RenderRecord.takeBoundary_not_due h]
    next => rfl
  calc s.takeBoundary i = { s with voices := (s.takeBoundary i).voices } := rfl
    _ = s := by rw [voices]

/-- Settles O41: the fade step state by state, and a boundary by whether it and a shift wait. -/
theorem fadeStepsAndGrainBoundaries : Obligations.FadeStepsAndGrainBoundaries := by
  refine ⟨fun s absent => ?_, fun s due => ?_, fun s i => ?_⟩
  · exact congrArg Host.Outcome.next (State.takeFadeStep_not_due absent)
  · refine ⟨_, rfl, by rw [State.takeFadeStep_due due]; rfl, fun i => ?_⟩
    rw [State.takeFadeStep_due due, State.fadeStep_get]
    refine ⟨rfl, RenderRecord.fadeStep_writes _, ?stands, ?rises, ?sounds, ?falls, ?ends⟩ <;> rw [RenderRecord.fadeStep_eq]
    case stands => rintro (idle | sounding) <;> simp_all
    case rises => intro rising low; simp_all; omega
    case sounds => intro rising high; simp_all
    case falls => intro falling high; simp_all
    case ends => intro falling low; simp_all
  · refine ⟨_, rfl, rfl, fun j other => ?_, ?_, State.takeBoundary_not_due, fun due d pending => ?_, fun due pending => ?_⟩
    · rw [State.takeBoundary_get, if_neg other]
    · rw [State.takeBoundary_get, if_pos rfl]
    · rw [State.takeBoundary_get, if_pos rfl]; exact RenderRecord.takeBoundary_adopts due pending
    · rw [State.takeBoundary_get, if_pos rfl]; exact RenderRecord.takeBoundary_passes due pending

/-! ### Frames -/

theorem Rate.atFrame_locked (r : Rate) : r.atFrame.state = .locked ↔ r.state = .locked := by
  rw [Rate.atFrame_eq]
  split
  next off => obtain off | off := off <;> simp [off]
  next => rfl

section
variable {s : State}

theorem State.countFade_locked (locked : s.rate.state = .locked) : s.countFade = s := if_pos locked

theorem State.countFade_counts (free : s.rate.state ≠ .locked) (low : s.renderer.fadeCount + 1 < 256) :
    s.countFade = { s with renderer := { s.renderer with fadeCount := s.renderer.fadeCount + 1 } } := by
  rw [State.countFade, if_neg free, if_pos low]

theorem State.countFade_full (free : s.rate.state ≠ .locked) (full : 256 ≤ s.renderer.fadeCount + 1) :
    s.countFade = { s with renderer := { s.renderer with fadeCount := 0 }, due := { s.due with fadeStep := true } } := by
  rw [State.countFade, if_neg free, if_neg (Nat.not_lt.mpr full)]

/-- R139: the fade-step count moves neither the ramp nor the grain. -/
theorem State.countFade_renderer (s : State) : s.countFade.renderer = { s.renderer with fadeCount := s.countFade.renderer.fadeCount } := by
  simp only [State.countFade]
  (repeat' split) <;> rfl

theorem State.Quiet.exec_frameSync (h : s.Quiet) (w : SlotWord) (b : Nat) : exec (.frameSync w b) s = .next (s.nextFrame w b) := by
  have completed : exec (.frameSync w b) s = .next (s.complete.nextFrame w b) := rfl
  rw [completed, h.complete]

/-- R139: what the fade-step count of a frame starts from. -/
theorem State.nextFrame_counts (s : State) (w : SlotWord) (b : Nat) :
    ∃ u : State, s.nextFrame w b = u.countFade ∧ u.due = s.due ∧ u.renderer = { s.renderer with ramp := min 256 (s.renderer.ramp + 1) } ∧
      (u.rate.state = .locked ↔ s.rate.state = .locked) := by
  refine ⟨_, rfl, by simp, ?renderer, ?rate⟩
  case renderer => simp [State.moveSamples, State.beginFrame]
  case rate => simp [State.beginFrame, Rate.atFrame_locked]

end

/-- Settles O7: each voice takes its boundary and then counts, and the count of fade steps follows last. -/
theorem frameSyncMovesGrains : Obligations.FrameSyncMovesGrains := by
  intro s word bits quiet
  obtain ⟨u, counted, due, renderer, locked⟩ := s.nextFrame_counts word bits
  refine ⟨_, quiet.exec_frameSync word bits, ?voice, ?ramp, ?mode, ?length, ?locked, ?counts, ?full⟩
  case voice =>
    intro i r q len
    have taken : r.takeBoundary = q := by
      cases boundary : r.boundaryDue with
      | false => simp [q, boundary, RenderRecord.takeBoundary_not_due boundary]
      | true =>
        cases pending : r.pending with
        | none => simp [q, boundary, pending, RenderRecord.takeBoundary_passes boundary pending]
        | some d => simp [q, boundary, pending, RenderRecord.takeBoundary_adopts boundary pending]
    have timer : q.timer = r.timer := by simp [← taken]
    rw [State.nextFrame_ren, ← timer]
    change r.takeBoundary.grainFrame len = _
    rw [taken]
    by_cases short : q.timer + 16 < len
    · rw [if_pos short, RenderRecord.grainFrame_counts short]
    · rw [if_neg short, RenderRecord.grainFrame_reaches short]
  case ramp => rw [counted, State.countFade_renderer, renderer]
  case mode => rw [counted, State.countFade_renderer, renderer]
  case length => rw [counted, State.countFade_renderer, renderer]
  case locked =>
    intro h
    rw [counted, State.countFade_locked (locked.mpr h), renderer, State.Quiet, due]
    exact ⟨rfl, quiet⟩
  case counts =>
    intro free low
    rw [counted, State.countFade_counts (locked.not.mpr free) (by rw [renderer]; exact low), State.Quiet, due, renderer]
    exact ⟨rfl, quiet⟩
  case full =>
    intro free high
    rw [counted, State.countFade_full (locked.not.mpr free) (by rw [renderer]; exact high), due, quiet]
    exact ⟨rfl, rfl⟩

end Sys2Proof.Machine


/-! ## Fault causes and the output state (R173, R175 to R177, Table 11.2) -/

namespace Sys2Proof.Machine

theorem Flag.fault_mask : Flag.fault.mask = 0x400#16 := rfl

theorem Flag.bypass_mask : Flag.bypass.mask = 0x800#16 := rfl

/-! ### Tests of every voice -/

section
variable {s : State}

theorem State.mapRen_same {f : RenderRecord → RenderRecord} (h : ∀ i, f (s.voices.get i).ren = (s.voices.get i).ren) : s.mapRen f = s := by
  have voices : (s.mapRen f).voices = s.voices := Quad.ext_get fun i => by rw [State.mapRen_get, h]
  calc s.mapRen f = { s with voices := (s.mapRen f).voices } := rfl
    _ = s := by rw [voices]

theorem State.retest_of_terms {sound : RenderRecord → Bool} (h : ∀ r, s.soundCondition r = sound r) :
    s.retest = s.mapRen fun r => r.retest (sound r) := by
  simp only [State.retest, h]

/-- R137: outside RUN every sound condition fails. -/
theorem State.retest_of_output (h : s.fault.output ≠ .run) : s.retest = s.mapRen fun r => r.retest false :=
  State.retest_of_terms (State.soundCondition_of_output h)

/-- R140: the voices that BYPASS cuts stay as they are. -/
theorem State.enterBypass_retest (s : State) : s.enterBypass.retest = s.enterBypass := by
  rw [State.retest_of_output (by simp)]
  exact State.mapRen_same fun i => RenderRecord.retest_false_silent (.inl (s.enterBypass_silent i).1)

/-- R177: the state that RUN is entered with, and the test that goes with it. -/
theorem State.enterRun_eq (s : State) :
    s.enterRun = State.mapRen { s with fault := { s.fault with output := .run, recovery := 0 } } fun r =>
      r.retest (decide (r.enable = true ∧ r.hasTarget = true ∧ s.noteTerm = true ∧ s.ctx.hush = none)) := by
  refine State.retest_of_terms fun r => ?_
  rw [State.soundCondition_eq]
  have term : State.noteTerm { s with fault := { s.fault with output := .run, recovery := 0 } } = s.noteTerm := rfl
  simp [term]

end

/-! ### HOWL_DECLARED -/

/-- R173: the declaration that is due, with the due mark cleared. -/
def State.howlTaken (s : State) : State := { s with due := { s.due with howl := false } }

/-- R173: cause HOWL made present. -/
def State.howlPresent (s : State) : State := { s.howlTaken with fault := { s.fault with causeHowl := true } }

section
variable {s : State}

theorem State.takeHowl_due (due : s.due.howl = true) : s.takeHowl = s.howlTaken.howlAppears.retest := if_pos due

theorem State.takeHowl_present (due : s.due.howl = true) (present : s.fault.causeHowl = true) :
    s.takeHowl = s.howlTaken.mapRen fun r => r.retest (s.soundCondition r) := by
  have stands : s.howlTaken.howlAppears = s.howlTaken := if_pos present
  rw [State.takeHowl_due due, stands]
  rfl

theorem State.takeHowl_absent (due : s.due.howl = true) (absent : s.fault.causeHowl = false) :
    s.takeHowl = (s.howlPresent.causeAppears .howl).retest := by
  have appears : s.howlTaken.howlAppears = s.howlPresent.causeAppears .howl := if_neg (by exact Bool.eq_false_iff.mp absent)
  rw [State.takeHowl_due due, appears]

/-- R176: RUN becomes DEGRADED. -/
theorem State.takeHowl_run (due : s.due.howl = true) (absent : s.fault.causeHowl = false) (run : s.fault.output = .run) :
    s.takeHowl = State.mapRen { s.howlTaken with
      fault := { s.fault with causeHowl := true, output := .degraded .howl, flags := s.fault.flags ||| 0x400#16 } } fun r => r.retest false := by
  have degraded : s.howlPresent.causeAppears .howl = { s.howlTaken with
      fault := { s.fault with causeHowl := true, output := .degraded .howl, flags := s.fault.flags ||| 0x400#16 } } := by
    simp [State.causeAppears, State.howlPresent, run, State.raise, Flag.fault_mask]
  rw [State.takeHowl_absent due absent, degraded, State.retest_of_output (by simp)]

/-- R140, R176: a second cause, or one while RECOVERING, enters BYPASS. -/
theorem State.takeHowl_bypasses (due : s.due.howl = true) (absent : s.fault.causeHowl = false)
    (ailing : s.fault.output = .degraded .rate ∨ s.fault.output = .recovering) :
    s.takeHowl = State.mapRen { s.howlTaken with
      fault := { s.fault with causeHowl := true, output := .bypass, flags := s.fault.flags ||| 0x800#16 } } RenderRecord.cut := by
  have bypass : s.howlPresent.causeAppears .howl = s.howlPresent.enterBypass := by
    obtain output | output := ailing <;> simp [State.causeAppears, State.howlPresent, output]
  rw [State.takeHowl_absent due absent, bypass, State.enterBypass_retest]
  simp only [State.enterBypass, State.raise, Flag.bypass_mask]
  rfl

theorem State.takeHowl_stands (due : s.due.howl = true) (absent : s.fault.causeHowl = false)
    (named : s.fault.output = .bypass ∨ s.fault.output = .degraded .howl) :
    s.takeHowl = s.howlPresent.mapRen fun r => r.retest false := by
  have stands : s.howlPresent.causeAppears .howl = s.howlPresent := by
    obtain output | output := named <;> simp [State.causeAppears, State.howlPresent, output]
  have silent : s.howlPresent.fault.output ≠ .run := by
    obtain output | output := named <;> simp [State.howlPresent, output]
  rw [State.takeHowl_absent due absent, stands, State.retest_of_output silent]

/-! ### RECOVERY_COMPLETE and CLEARFAULT -/

theorem State.takeRecovery_stands (due : s.due.recovery = true) (left : s.fault.output ≠ .recovering) :
    s.takeRecovery = { s with due := { s.due with recovery := false } } := by
  simp [State.takeRecovery, due, left]

theorem State.takeRecovery_recovers (due : s.due.recovery = true) (recovering : s.fault.output = .recovering) :
    s.takeRecovery = State.enterRun { s with due := { s.due with recovery := false } } := by
  simp [State.takeRecovery, due, recovering]

theorem State.answerClearfault_run (run : s.fault.output = .run) : s.answerClearfault = (s, .done, faultData s) := by
  simp [State.answerClearfault, run]

theorem State.answerClearfault_degraded {k : Cause} (degraded : s.fault.output = .degraded k) :
    s.answerClearfault = (s, .faultActive, faultData s) := by
  simp [State.answerClearfault, degraded]

theorem State.answerClearfault_active (bypass : s.fault.output = .bypass) (active : s.rate.causeRate = true ∨ s.fault.causeHowl = true) :
    s.answerClearfault = (s, .faultActive, faultData s) := by
  simp [State.answerClearfault, bypass, active]

/-- R177: outside RUN and DEGRADED, CLEARFAULT with no cause present enters RUN. -/
theorem State.answerClearfault_clears (off : s.fault.output = .recovering ∨ s.fault.output = .bypass)
    (absent : ¬(s.rate.causeRate = true ∨ s.fault.causeHowl = true)) :
    s.answerClearfault = (s.enterRun, .done, faultData s.enterRun) := by
  obtain output | output := off <;> simp_all [State.answerClearfault]

variable {src : Manual}

theorem State.Quiet.exec_clearfault {t : State} {code : ReplyCode} {data : List Byte} (h : s.Quiet) (permitted : src ≠ .stage)
    (answers : s.answerClearfault = (t, code, data)) : exec (.clearfault src) s = .next (t.reply src ⟨0x50#8, code, data⟩) := by
  have allowed : src ∈ Cmd.clearfault.sources := by
    cases src with
    | panel => decide
    | desk => decide
    | stage => exact absurd rfl permitted
  exact congrArg Host.Outcome.next (h.command_answers (c := .clearfault) (body := State.answerClearfault) allowed answers)

end

/-- Settles O51: the howl check by its terms, the two completions and CLEARFAULT by the output state. -/
theorem faultCausesMoveTheOutputState : Obligations.FaultCausesMoveTheOutputState := by
  refine ⟨⟨fun f held confidence level sounding dev => ?report, fun s => ?howl, fun s => ?recovery⟩, fun s src quiet agrees => ?clear⟩
  case report =>
    refine ⟨fun off => ?_, fun on absent terms => ?_, fun on absent terms => ?_⟩
    · exact FaultMonitor.howlReport_stands (by simpa [or_iff_not_imp_left] using off)
    · exact FaultMonitor.howlReport_rises ⟨on, absent⟩ ((howlTerms_iff ..).mpr terms)
    · exact FaultMonitor.howlReport_restarts ⟨on, absent⟩ (mt (howlTerms_iff ..).mp terms)
  case howl =>
    refine ⟨fun idle => ?_, fun due absent => ⟨fun run => ?_, fun ailing => ?_, fun named => ?_⟩, fun due present => ?_⟩
    · exact congrArg Host.Outcome.next (State.takeHowl_not_due idle)
    · exact congrArg Host.Outcome.next (State.takeHowl_run due absent run)
    · exact congrArg Host.Outcome.next (State.takeHowl_bypasses due absent ailing)
    · exact congrArg Host.Outcome.next (State.takeHowl_stands due absent named)
    · exact congrArg Host.Outcome.next (State.takeHowl_present due present)
  case recovery =>
    refine ⟨fun idle => ?_, fun due left => ?_, fun due recovering => ?_⟩
    · exact congrArg Host.Outcome.next (State.takeRecovery_not_due idle)
    · exact congrArg Host.Outcome.next (State.takeRecovery_stands due left)
    · exact congrArg Host.Outcome.next ((State.takeRecovery_recovers due recovering).trans (State.enterRun_eq _))
  case clear =>
    intro mark causes active
    refine ⟨fun permitted => ⟨fun run => ?_, fun k degraded => ?_, fun bypass present => ?_, fun off => ?_⟩, ?_⟩
    · rw [quiet.exec_clearfault permitted (State.answerClearfault_run run), faultData, run]; rfl
    · rw [quiet.exec_clearfault permitted (State.answerClearfault_degraded degraded), faultData, degraded]; rfl
    · rw [quiet.exec_clearfault permitted (State.answerClearfault_active bypass present), faultData, bypass]; rfl
    · intro sound
      have absent : ¬active := by
        obtain recovering | ⟨_, absent⟩ := off
        · obtain ⟨rate, howl⟩ := State.CausesNamed.of_recovering (s.outputAgrees_iff.mp agrees).2 recovering
          simp [active, rate, howl]
        · exact absent
      have term : s.noteTerm = true ↔ s.decider.state.note ≠ none := by
        rw [State.noteTerm_reached (by rw [quiet]; rfl), Option.isSome_iff_ne_none]
      rw [quiet.exec_clearfault permitted (State.answerClearfault_clears (off.imp_right And.left) absent), State.enterRun_eq]
      simp only [term]
      rfl
    · exact quiet.exec_notPermitted (src := .stage) (c := .clearfault) rfl (by decide)

end Sys2Proof.Machine


/-! ## The cue list's records and length (R145 to R148, R152, R166, R169) -/

namespace Sys2Proof.Machine

/-! ### What a record's bytes read as

A reader answers a value exactly while the bytes are in range; the readers of a record's fields make up the record's own. -/

/-- A reader's result is `value` while `inRange` holds, and nothing otherwise. -/
structure Reads {α : Type} (read : Option α) (inRange : Prop) (value : α) : Prop where
  inside : inRange → read = some value
  outside : ¬inRange → read = none

theorem Reads.inRange {α : Type} {read : Option α} {ok : Prop} {v w : α} (h : Reads read ok v) (e : read = some w) : ok := by
  by_contra bad
  rw [h.outside bad] at e
  cases e

theorem readFin_reads (n : Nat) (b : Byte) : Reads (readFin (n + 1) b) (b.toNat ≤ n) (Fin.ofNat (n + 1) b.toNat) :=
  ⟨fun le => readFin_of_lt (Nat.lt_succ_of_le le), fun gt => readFin_of_le (Nat.lt_of_not_le gt)⟩

/-- R146: an optional field is checked only while it is present. -/
theorem readOptional_reads {α : Type} {x : Option α} {ok : Prop} {v : α} (h : Reads x ok v) (present : Bool) :
    Reads (readOptional present x) (present = true → ok) (if present = true then some v else none) := by
  cases present with
  | false => exact ⟨fun _ => rfl, fun bad => absurd (fun e => nomatch e) bad⟩
  | true =>
    refine ⟨fun ok => ?_, fun bad => ?_⟩
    · simp [readOptional, h.inside (ok rfl)]
    · simp [readOptional, h.outside fun ok => bad fun _ => ok]

/-- A code of three values is 0, 1 or 2, or stands for none. -/
theorem Byte.three_codes (b : Byte) : b = 0#8 ∨ b = 1#8 ∨ b = 2#8 ∨ (b ≠ 0#8 ∧ b ≠ 1#8 ∧ b ≠ 2#8 ∧ ¬b.toNat ≤ 2) := by bv_omega

/-- R146: the chord field of a step, by its kind. -/
def cueChordOf (b : ChordBytes) : Option (Option Chord) :=
  if b.kind = 0#8 then none else if b.kind = 1#8 then some none else some (some (chordOf .cueload b))

theorem readCueChord_reads (b : ChordBytes) :
    Reads (readCueChord b) (b.kind.toNat ≤ 2 ∧ (b.kind = 2#8 → ChordInRange .cueload b)) (cueChordOf b) := by
  obtain kind | kind | kind | ⟨zero, one, two, above⟩ := Byte.three_codes b.kind
  · constructor <;> simp [readCueChord, cueChordOf, kind]
  · constructor <;> simp [readCueChord, cueChordOf, kind]
  · refine ⟨fun ⟨_, inside⟩ => ?_, fun bad => ?_⟩
    · simp [readCueChord, cueChordOf, kind, readChord_inRange (inside kind)]
    · have outside : ¬ChordInRange .cueload b := fun ok => bad ⟨by simp [kind], fun _ => ok⟩
      simp [readCueChord, kind, readChord_outside outside]
  · exact ⟨fun ⟨le, _⟩ => absurd le above, fun _ => by simp [readCueChord, zero, one, two]⟩

/-- R146: the advance condition of a step, by its kind. -/
def advanceOf (kind : Byte) (count : BitVec 16) : Advance :=
  if kind = 0#8 then .manual else if kind = 1#8 then .onsets count.toNat else .dwell count.toNat

theorem readAdvance_reads (kind : Byte) (count : BitVec 16) :
    Reads (readAdvance kind count)
      (kind.toNat ≤ 2 ∧ (kind = 1#8 → 1 ≤ count.toNat ∧ count.toNat ≤ 255) ∧ (kind = 2#8 → 1 ≤ count.toNat)) (advanceOf kind count) := by
  obtain rfl | rfl | rfl | ⟨zero, one, two, above⟩ := Byte.three_codes kind
  · constructor <;> simp [readAdvance, advanceOf]
  · constructor <;> simp [readAdvance, advanceOf]
  · constructor <;> simp [readAdvance, advanceOf]
    omega
  · exact ⟨fun ⟨le, _⟩ => absurd le above, fun _ => by simp [readAdvance, zero, one, two]⟩

/-- R146: whether a binding's voice and slot lie in their ranges. -/
def BindingInRange (p : Byte × Byte) : Prop := p.1.toNat ≤ 3 ∧ p.2.toNat ≤ 15

/-- R146: the voice and the slot of a binding. -/
def bindingOf (p : Byte × Byte) : Fin 4 × Fin 16 := (Fin.ofNat 4 p.1.toNat, Fin.ofNat 16 p.2.toNat)

theorem readBinding_reads (p : Byte × Byte) : Reads (readBinding p) (BindingInRange p) (bindingOf p) := by
  have voice := readFin_reads 3 p.1
  have slot := readFin_reads 15 p.2
  refine ⟨fun ⟨v, k⟩ => ?_, fun bad => ?_⟩
  · simp only [readBinding, voice.inside v, slot.inside k, bindingOf]
  · by_cases v : p.1.toNat ≤ 3
    · simp only [readBinding, voice.inside v, slot.outside fun k => bad ⟨v, k⟩]
    · simp only [readBinding, voice.outside v]

theorem readBindings_reads (l : List (Byte × Byte)) : Reads (readBindings l) (∀ p ∈ l, BindingInRange p) (l.map bindingOf) := by
  induction l with
  | nil => exact ⟨fun _ => rfl, fun bad => absurd (by simp) bad⟩
  | cons p l tail =>
    have head := readBinding_reads p
    rw [List.forall_mem_cons]
    refine ⟨fun ⟨first, rest⟩ => ?_, fun bad => ?_⟩
    · simp only [readBindings, head.inside first, tail.inside rest, List.map_cons]
    · by_cases first : BindingInRange p
      · simp only [readBindings, head.inside first, tail.outside fun rest => bad ⟨first, rest⟩]
      · simp only [readBindings, head.outside first]

/-- R146, check 1: the fields of a step record in their ranges. -/
def CueRecordInRange (b : CueBytes) : Prop :=
  (readMark .cueload b.keyMark = true → b.key.toNat ≤ 11) ∧ (readMark .cueload b.scaleMark = true → b.scale.toNat ≤ 7) ∧
    b.chord.kind.toNat ≤ 2 ∧ (b.chord.kind = 2#8 → ChordInRange .cueload b.chord) ∧
    b.advance.toNat ≤ 2 ∧ (b.advance = 1#8 → 1 ≤ b.count.toNat ∧ b.count.toNat ≤ 255) ∧ (b.advance = 2#8 → 1 ≤ b.count.toNat) ∧
    ∀ p ∈ b.bindings, BindingInRange p

theorem CueRecordInRange.bindings {b : CueBytes} (ok : CueRecordInRange b) : ∀ p ∈ b.bindings, BindingInRange p := by
  obtain ⟨-, -, -, -, -, -, -, bindings⟩ := ok
  exact bindings

/-- R145: the step that a record in range describes. -/
def cueStepOf (b : CueBytes) : CueStep where
  key := if readMark .cueload b.keyMark = true then some (Fin.ofNat 12 b.key.toNat) else none
  scale := if readMark .cueload b.scaleMark = true then some (Fin.ofNat 8 b.scale.toNat) else none
  chord := cueChordOf b.chord
  setMask := b.setMask
  clearMask := b.clearMask
  bindings := b.bindings.map bindingOf
  advance := advanceOf b.advance b.count

theorem readCueStep_reads (b : CueBytes) : Reads (readCueStep b) (CueRecordInRange b) (cueStepOf b) := by
  have key := readOptional_reads (readFin_reads 11 b.key) (readMark .cueload b.keyMark)
  have scale := readOptional_reads (readFin_reads 7 b.scale) (readMark .cueload b.scaleMark)
  have chord := readCueChord_reads b.chord
  have advance := readAdvance_reads b.advance b.count
  have bindings := readBindings_reads b.bindings
  refine ⟨fun ⟨keyOk, scaleOk, kind, chorded, way, onsets, dwell, bindingsOk⟩ => ?_, fun bad => ?_⟩
  · simp only [readCueStep, key.inside keyOk, scale.inside scaleOk, chord.inside ⟨kind, chorded⟩, advance.inside ⟨way, onsets, dwell⟩,
      bindings.inside bindingsOk, cueStepOf]
  · unfold readCueStep
    split
    next readKey readScale readChord readAdvance readBindings =>
      obtain ⟨kind, chorded⟩ := chord.inRange readChord
      obtain ⟨way, onsets, dwell⟩ := advance.inRange readAdvance
      exact absurd ⟨key.inRange readKey, scale.inRange readScale, kind, chorded, way, onsets, dwell, bindings.inRange readBindings⟩ bad
    next => rfl

/-! ### CUELOAD (R146) -/

/-- R146, check 2, on the bytes: voices in range are told apart by their bytes. -/
theorem bindingsFormed_iff {l : List (Byte × Byte)} (inRange : ∀ p ∈ l, BindingInRange p) :
    bindingsFormed (l.map bindingOf) = true ↔ l.length ≤ 4 ∧ (l.map Prod.fst).Nodup := by
  have voices : (l.map bindingOf).map Prod.fst = (l.map Prod.fst).map fun v => Fin.ofNat 4 v.toNat := by
    rw [List.map_map, List.map_map]; rfl
  have below {v : Byte} (mem : v ∈ l.map Prod.fst) : v.toNat < 4 := by
    obtain ⟨p, listed, rfl⟩ := List.mem_map.mp mem
    exact Nat.lt_succ_of_le (inRange p listed).1
  have apart : ((l.map Prod.fst).map fun v => Fin.ofNat 4 v.toNat).Nodup ↔ (l.map Prod.fst).Nodup :=
    ⟨List.Nodup.of_map _, List.Nodup.map_on fun _ hv _ hw same => (Fin.ofNat_inj_of_lt (below hv) (below hw)).mp same⟩
  rw [bindingsFormed, voices, Bool.and_eq_true, decide_eq_true_iff, decide_eq_true_iff, List.length_map, apart]

/-- R146, check 3: the slots that a record names are non-empty. -/
def CueSlotsFilled (t : Tables) (b : CueBytes) : Prop :=
  (readMark .cueload b.scaleMark = true → (t.scales.getD b.scale.toNat ⟨0#12, .parallel⟩).members ≠ 0#12) ∧
    (b.chord.kind = 2#8 → t.shapes.getD b.chord.shape.toNat 0#12 ≠ 0#12)

theorem slotsFilled_iff {b : CueBytes} (t : Tables) (ok : CueRecordInRange b) : slotsFilled t (cueStepOf b) = true ↔ CueSlotsFilled t b := by
  obtain ⟨-, scale, kind, chorded, -⟩ := ok
  have scales : ((cueStepOf b).scale.all fun k => t.scaleFilled k) = true ↔
      (readMark .cueload b.scaleMark = true → (t.scales.getD b.scale.toNat ⟨0#12, .parallel⟩).members ≠ 0#12) := by
    by_cases present : readMark .cueload b.scaleMark = true
    · have slot : b.scale.toNat < 8 := Nat.lt_succ_of_le (scale present)
      simpa [cueStepOf, present] using t.scaleFilled_ofNat slot
    · simp [cueStepOf, present]
  have shapes : ((cueStepOf b).chord.all fun x => x.all fun y => t.shapeFilled y.shape) = true ↔
      (b.chord.kind = 2#8 → t.shapes.getD b.chord.shape.toNat 0#12 ≠ 0#12) := by
    obtain zero | one | two | ⟨-, -, -, above⟩ := Byte.three_codes b.chord.kind
    · simp [cueStepOf, cueChordOf, zero]
    · simp [cueStepOf, cueChordOf, one]
    · obtain ⟨-, slot, -⟩ := chorded two
      simpa [cueStepOf, cueChordOf, two, chordOf] using t.shapeFilled_ofNat (Nat.lt_succ_of_le slot)
    · exact absurd kind above
  rw [slotsFilled, Bool.and_eq_true, scales, shapes, CueSlotsFilled]

section
variable (s : State) {step : Byte} {b : CueBytes}

theorem State.answerCueload_range (bad : ¬(step.toNat ≤ 63 ∧ CueRecordInRange b)) : s.answerCueload step b = (s, .range, []) := by
  unfold State.answerCueload
  split
  next readStep readRecord => exact absurd ⟨(readFin_reads 63 step).inRange readStep, (readCueStep_reads b).inRange readRecord⟩ bad
  next => rfl

variable (listed : step.toNat ≤ 63) (ok : CueRecordInRange b)
include listed ok

/-- R146: the two checks that are left once the record is in range, and the replacement of the step. -/
theorem State.answerCueload_inRange :
    s.answerCueload step b =
      if !bindingsFormed (cueStepOf b).bindings then answer s .format
      else if !slotsFilled s.tables (cueStepOf b) then answer s .empty
      else answer { s with tables := { s.tables with cues := s.tables.cues.set step.toNat (cueStepOf b) } } .done := by
  have place : (Fin.ofNat 64 step.toNat).val = step.toNat := Nat.mod_eq_of_lt (Nat.lt_succ_of_le listed)
  simp only [State.answerCueload, (readFin_reads 63 step).inside listed, (readCueStep_reads b).inside ok, place]

theorem State.answerCueload_format (unformed : ¬(b.bindings.length ≤ 4 ∧ (b.bindings.map Prod.fst).Nodup)) :
    s.answerCueload step b = (s, .format, []) := by
  have fails : bindingsFormed (cueStepOf b).bindings = false := Bool.eq_false_iff.mpr (mt (bindingsFormed_iff ok.bindings).mp unformed)
  simp [s.answerCueload_inRange listed ok, fails, answer]

variable (formed : b.bindings.length ≤ 4 ∧ (b.bindings.map Prod.fst).Nodup)
include formed

theorem State.answerCueload_empty (unfilled : ¬CueSlotsFilled s.tables b) : s.answerCueload step b = (s, .empty, []) := by
  have passes : bindingsFormed (cueStepOf b).bindings = true := (bindingsFormed_iff ok.bindings).mpr formed
  have fails : slotsFilled s.tables (cueStepOf b) = false := Bool.eq_false_iff.mpr (mt (slotsFilled_iff s.tables ok).mp unfilled)
  simp [s.answerCueload_inRange listed ok, passes, fails, answer]

theorem State.answerCueload_stores (filled : CueSlotsFilled s.tables b) :
    s.answerCueload step b = ({ s with tables := { s.tables with cues := s.tables.cues.set step.toNat (cueStepOf b) } }, .done, []) := by
  have passes : bindingsFormed (cueStepOf b).bindings = true := (bindingsFormed_iff ok.bindings).mpr formed
  have names : slotsFilled s.tables (cueStepOf b) = true := (slotsFilled_iff s.tables ok).mpr filled
  simp [s.answerCueload_inRange listed ok, passes, names, answer]

end

/-! ### CUELEN (R147, R152) -/

/-- R147: a list of `length` steps, and WRAP by its byte. -/
def Tables.sized (t : Tables) (length wrap : Byte) : Tables := { t with cueLength := length.toNat, wrap := decide (wrap = 0#8) }

section
variable (s : State) {length wrap : Byte}

theorem State.answerCuelen_range (bad : 64 < length.toNat ∨ 1 < wrap.toNat) : s.answerCuelen length wrap = (s, .range, []) := by
  by_cases code : wrap.toNat ≤ 1
  · simp only [State.answerCuelen, readOnOff_eq, if_pos code, if_pos (bad.resolve_right (not_lt.mpr code)), answer]
  · simp only [State.answerCuelen, readOnOff_eq, if_neg code, answer]

variable (fits : length.toNat ≤ 64) (code : wrap.toNat ≤ 1)
include fits code

/-- R147: CUELEN with both fields in range, the cursor's place not yet looked at. -/
theorem State.answerCuelen_inRange :
    s.answerCuelen length wrap =
      let t := { s with tables := s.tables.sized length wrap }
      let u := if s.cue.cursor.any fun k => decide (length.toNat ≤ k.val) then t.clearCue else t
      (u, .done, [length, wrap] ++ cursorBytes u.cue) := by
  have codes : wrap = 0#8 ∨ wrap = 1#8 := by bv_omega
  simp only [State.answerCuelen, if_neg (not_lt.mpr fits)]
  obtain rfl | rfl := codes <;> rfl

/-- R147, R152: a cursor at or beyond the new length is cleared. -/
theorem State.answerCuelen_clears {k : Fin 64} (cursor : s.cue.cursor = some k) (beyond : length.toNat ≤ k.val) :
    s.answerCuelen length wrap =
      ({ s with tables := s.tables.sized length wrap, cue := .atReset }, .done, [length, wrap, 0#8, 0#8]) := by
  simp [s.answerCuelen_inRange fits code, cursor, beyond, State.clearCue, cursorBytes, CueUnit.atReset, optBytes]

/-- R147: a cursor inside the new list stays, and so does its absence. -/
theorem State.answerCuelen_stays (inside : ∀ k, s.cue.cursor = some k → k.val < length.toNat) :
    s.answerCuelen length wrap =
      ({ s with tables := s.tables.sized length wrap }, .done, [length, wrap] ++ cursorBytes s.cue) := by
  have stands : (s.cue.cursor.any fun k => decide (length.toNat ≤ k.val)) = false := by
    cases cursor : s.cue.cursor with
    | none => rfl
    | some k => simpa using inside k cursor
  simp [s.answerCuelen_inRange fits code, stands]

end

/-! ### Both from PANEL, with nothing due -/

section
variable {s t : State} {code : ReplyCode} {data : List Byte} (h : s.Quiet)
include h

theorem State.Quiet.exec_cueload {step : Byte} {b : CueBytes} (answers : s.answerCueload step b = (t, code, data)) :
    exec (.cueload .panel step b) s = .next (t.reply .panel ⟨0x24#8, code, data⟩) :=
  congrArg Host.Outcome.next (h.command_answers (src := .panel) (c := .cueload) (body := fun u => u.answerCueload step b) (by decide) answers)

theorem State.Quiet.exec_cuelen {length wrap : Byte} (answers : s.answerCuelen length wrap = (t, code, data)) :
    exec (.cuelen .panel length wrap) s = .next (t.reply .panel ⟨0x25#8, code, data⟩) :=
  congrArg Host.Outcome.next (h.command_answers (src := .panel) (c := .cuelen) (body := fun u => u.answerCuelen length wrap) (by decide) answers)

end

/-- Settles O44: each check of CUELOAD in its turn, and CUELEN by where the cursor stands. -/
theorem cueListIsLoadedAndSized : Obligations.CueListIsLoadedAndSized := by
  refine ⟨⟨rfl, rfl⟩, fun s quiet => ⟨fun step b => ⟨?_, ?_, ?_, ?_⟩, fun length wrap => ⟨fun bad => ?_, fun fits code => ⟨?_, ?_, ?_⟩⟩⟩⟩
  · exact fun bad => quiet.exec_cueload (s.answerCueload_range bad)
  · exact fun ⟨listed, ok⟩ unformed => quiet.exec_cueload (s.answerCueload_format listed ok unformed)
  · exact fun ⟨listed, ok⟩ formed unfilled => quiet.exec_cueload (s.answerCueload_empty listed ok formed unfilled)
  · exact fun ⟨listed, ok⟩ formed filled => quiet.exec_cueload (s.answerCueload_stores listed ok formed filled)
  · exact quiet.exec_cuelen (s.answerCuelen_range bad)
  · exact fun k cursor beyond => quiet.exec_cuelen (s.answerCuelen_clears fits code cursor beyond)
  · intro k cursor inside
    rw [quiet.exec_cuelen (s.answerCuelen_stays fits code fun j at_j => by rw [cursor] at at_j; cases at_j; exact inside), cursorBytes, cursor]
    rfl
  · intro absent
    rw [quiet.exec_cuelen (s.answerCuelen_stays fits code fun j at_j => by rw [absent] at at_j; cases at_j), cursorBytes, absent]
    rfl

end Sys2Proof.Machine


/-! ## The cursor and the cue list's length (R145, R147 to R155) -/

namespace Sys2Proof.Machine

/-! ### Where the cursor may go (R149 to R151, R155) -/

@[simp] theorem State.enterStep_cue (s : State) (k : Fin 64) :
    (s.enterStep k).cue = ⟨some k, 0, true, (s.tables.cueStep k).advance⟩ := rfl

@[simp] theorem State.enterStepHeld_cue (s : State) (k : Fin 64) :
    (s.enterStepHeld k).cue = ⟨some k, 0, true, (s.tables.cueStep k).advance⟩ := rfl

@[simp] theorem CueUnit.countOnset_cursor (c : CueUnit) : c.countOnset.cursor = c.cursor := by
  simp only [CueUnit.countOnset]; split <;> rfl

@[simp] theorem CueUnit.atHop_cursor (c : CueUnit) : c.atHop.1.cursor = c.cursor := by
  simp only [CueUnit.atHop]; (repeat' split) <;> rfl

@[simp] theorem State.measurement_cursor (s : State) (m : Nat) (a : Analysis) (o : RenderOrder) :
    (s.measurement m a o).cue.cursor = s.cue.cursor := by
  simp only [State.measurement]; (repeat' split) <;> simp [State.hop_lines]

/-- R155: the list goes on to a step of the list: to the one behind `k`, or to step 0, which stands in a list that has a step `k`. -/
theorem Tables.nextStep_listed {t : Tables} {k j : Fin 64} (listed : k.val < t.cueLength) (next : t.nextStep k = some j) :
    j.val < t.cueLength := by
  have top := k.isLt
  simp only [Tables.nextStep] at next
  split at next
  next behind =>
    obtain rfl := Option.some.inj next
    exact (Nat.mod_le _ _).trans_lt behind
  next =>
    split at next
    next wraps =>
      obtain rfl := Option.some.inj next
      exact Nat.zero_lt_of_lt listed
    next => cases next

/-! ### Operations that keep the cursor inside the list -/

theorem State.CursorInside.same {s t : State} (h : s.CursorInside) (length : t.tables.cueLength = s.tables.cueLength)
    (cursor : t.cue.cursor = s.cue.cursor) : t.CursorInside := by
  rw [State.CursorInside, length, cursor]; exact h

/-- R148: without a cursor the bound on the length is all there is. -/
theorem State.CursorInside.absent {s : State} (le : s.tables.cueLength ≤ 64) (none : s.cue.cursor = none) : s.CursorInside :=
  ⟨le, by simp [none]⟩

/-- R149: step entry puts the cursor on the step. -/
theorem State.CursorInside.placed {s : State} {k : Fin 64} (le : s.tables.cueLength ≤ 64) (cursor : s.cue.cursor = some k)
    (listed : k.val < s.tables.cueLength) : s.CursorInside :=
  ⟨le, by simpa [cursor] using listed⟩

section
variable {s : State} (h : s.CursorInside)
include h

theorem State.CursorInside.listed {k : Fin 64} (cursor : s.cue.cursor = some k) : k.val < s.tables.cueLength := h.2 k cursor

theorem State.CursorInside.enterStep {k : Fin 64} (listed : k.val < s.tables.cueLength) : (s.enterStep k).CursorInside :=
  .placed (k := k) (by simpa using h.1) rfl (by simpa using listed)

/-- R153, R155: an automatic advance within a note start. -/
theorem State.CursorInside.advanceHeld : s.advanceHeld.CursorInside := by
  simp only [State.advanceHeld]
  split
  next => exact h
  next k cursor =>
    split
    next j next =>
      exact .placed (k := j) (by simpa using h.1) (by simp) (by simpa using Tables.nextStep_listed (h.listed cursor) next)
    next => exact h

/-- R155: an automatic advance by DWELL. -/
theorem State.CursorInside.advance : s.advance.CursorInside := by
  simp only [State.advance]
  split
  next => exact h
  next k cursor =>
    split
    next j next => exact h.enterStep (Tables.nextStep_listed (h.listed cursor) next)
    next => exact h

/-- R153: a note start counts in its step, or advances. -/
theorem State.CursorInside.cueOnset : s.cueOnset.CursorInside := by
  simp only [State.cueOnset]
  split
  next =>
    split
    next =>
      split
      next => exact h
      next => exact h.advanceHeld
    next => exact h
  all_goals exact h

theorem State.CursorInside.noteStart (k : PublicationKind) : (s.noteStart k).CursorInside :=
  (State.CursorInside.cueOnset (s := s.takeHead .onset) (h.same (by simp) (by simp))).same (by simp) rfl

/-! ### Navigation and CUELEN (R147, R150, R151) -/

theorem State.CursorInside.cuenext : s.answerCuenext.1.CursorInside := by
  simp only [State.answerCuenext, navigated, answer]
  split
  next =>
    split
    next => exact h
    next filled => exact h.enterStep (Nat.pos_of_ne_zero filled)
  next k cursor =>
    split
    next j next => exact h.enterStep (Tables.nextStep_listed (h.listed cursor) next)
    next => exact h

theorem State.CursorInside.cueprev : s.answerCueprev.1.CursorInside := by
  simp only [State.answerCueprev, navigated, answer]
  split
  next => exact h
  next k cursor =>
    have listed := h.listed cursor
    split
    next => exact h.enterStep ((Nat.mod_le _ _).trans_lt (by omega))
    split
    next => exact h.enterStep ((Nat.mod_le _ _).trans_lt (by omega))
    next => exact h

theorem State.CursorInside.cuegoto (step : Byte) : (s.answerCuegoto step).1.CursorInside := by
  simp only [State.answerCuegoto, navigated, answer]
  split
  next k _ =>
    split
    next listed => exact h.enterStep listed
    next => exact h
  next => exact h

/-- R147: a cursor that the new length leaves behind is cleared. -/
theorem State.CursorInside.cuelen (length wrap : Byte) : (s.answerCuelen length wrap).1.CursorInside := by
  by_cases bad : 64 < length.toNat ∨ 1 < wrap.toNat
  · rw [s.answerCuelen_range bad]; exact h
  · obtain ⟨fits, code⟩ : length.toNat ≤ 64 ∧ wrap.toNat ≤ 1 := by omega
    by_cases inside : ∀ k, s.cue.cursor = some k → k.val < length.toNat
    · rw [s.answerCuelen_stays fits code inside]; exact ⟨fits, inside⟩
    · push Not at inside
      obtain ⟨k, cursor, beyond⟩ := inside
      rw [s.answerCuelen_clears fits code cursor beyond]; exact .absent fits rfl

end

/-- R145, R148: step entries and CUELEN apart, no operation moves the cursor or the length but to clear them. -/
theorem cursorInside_kept : Kept State.CursorInside := by
  constructor
  case powerOn => intro s sa _; exact .absent (by simp [State.powerOn, Tables.atReset]) rfl
  case takeNoteStart =>
    intro s h; simp only [State.takeNoteStart]; split
    · exact h.noteStart _
    · exact h
  case takeDwell =>
    intro s h; simp only [State.takeDwell]; split
    · exact State.CursorInside.advance (by exact h)
    · exact h
  case cuenext => intro s h; exact h.cuenext
  case cueprev => intro s h; exact h.cueprev
  case cuegoto => intro s step h; exact h.cuegoto step
  case cuestop => intro s h; exact .absent h.1 rfl
  case cueload => intro s step b h; exact h.same (by simp only [State.answerCueload, answer]; (repeat' split) <;> rfl) (by simp)
  case cuelen => intro s length wrap h; exact h.cuelen length wrap
  case loadscale =>
    intro s slot members rule h
    exact h.same (by simp only [State.answerLoadscale, answer]; (repeat' split) <;> simp) (by simp)
  case loadshape =>
    intro s slot members h
    exact h.same (by simp only [State.answerLoadshape, answer]; (repeat' split) <;> simp) (by simp)
  case loadplan =>
    intro s slot plan adoption h
    exact h.same (by simp only [State.answerLoadplan, answer]; split <;> simp) (by simp)
  case restart => intro s h; exact .absent (by simpa using h.1) (by simp [State.answerRestart, answer, State.resetRuntime, CueUnit.atReset])
  all_goals intros; exact State.CursorInside.same ‹_› (by simp) (by simp)

/-- Settles O52: every operation that a step is made of keeps the cursor inside the list. -/
theorem cursorStaysInsideTheList : Obligations.CursorStaysInsideTheList :=
  fun s t e h => cursorInside_kept.step s t h e

end Sys2Proof.Machine

/-! ## The control ports (R158 to R165) -/

namespace Sys2Proof.Machine

/-! ### The bytes of a record (R160, R162) -/

/-- R167: what travels as a record runs as the decoder routes it. -/
theorem exec_eq_route {i : Instr} (record : (encodeArgs i).isSome = true) (s : State) : exec i s = .next (s.route i) := by
  cases i
  case powerOn | frameSync | frameAbsence | measurement | fadeStepCount | grainBoundary | settleComplete | releaseComplete | learnComplete |
      decayEvent | dwellExpiry | howlDeclared | recoveryComplete | character | matchEnd | lineBreak | silenceThreshold | timeOut | fetch |
      commandTransaction | refusedTransaction | stageWrite | stageRead | falseStart | selectAssertion | startCondition => cases record
  all_goals rfl

section
variable {s : State} {src : Manual}

/-- R167: a record that is decoded runs its command. -/
theorem State.record_command {code : Byte} {args : List Byte} {i : Instr} (decoded : decodeRecord src code args = .command i) :
    .next (s.record src code args) = exec i s := by
  rw [exec_eq_route (decodeRecord_isRecord decoded), State.record, decoded]

/-- R167: with nothing due, a record that is refused leaves its refusal. -/
theorem State.Quiet.record_refused (quiet : s.Quiet) {code : Byte} {args : List Byte} {r : ReplyCode}
    (refused : decodeRecord src code args = .refused r) : s.record src code args = s.reply src ⟨code, r, []⟩ := by
  simp only [State.record, refused, quiet.complete]

/-- R160, R162: a whole record, whose length byte counts its arguments, is handed to the decoder. -/
theorem State.judge_whole {limit : Nat} {args : List Byte} (fits : args.length + 2 ≤ limit) (counted : args.length < 256) (code : Byte) :
    s.judge src limit (code :: BitVec.ofNat 8 args.length :: args) = s.record src code args := by
  have count : args.length = (BitVec.ofNat 8 args.length).toNat := by rw [BitVec.toNat_ofNat, Nat.mod_eq_of_lt counted]
  rw [State.judge, if_pos ⟨count, fits⟩]

/-- R160, R162: what a command that hands a port's bytes on does, with nothing due. -/
theorem State.Quiet.run_of_judge (quiet : s.Quiet) {limit : Nat} (room : 2 ≤ limit ∧ limit < 258) {bytes : List Byte}
    {run : Host.Outcome State Fault Refusal} (judges : run = .next (s.judge src limit bytes)) :
    (bytes = [] → run = .next s) ∧
      (∀ code args, bytes = code :: BitVec.ofNat 8 args.length :: args → args.length ≤ limit - 2 →
        (∀ i, decodeRecord src code args = .command i → run = exec i s) ∧
        (∀ r, decodeRecord src code args = .refused r → run = .next (s.reply src ⟨code, r, []⟩))) ∧
      (∀ code, bytes = [code] → run = .next (s.reply src ⟨code, .format, []⟩)) ∧
      ∀ code n args, bytes = code :: n :: args → args.length ≠ n.toNat ∨ limit - 2 < args.length →
        run = .next (s.reply src ⟨code, .format, []⟩) := by
  subst judges
  refine ⟨?_, ?_, ?_, ?_⟩
  · rintro rfl
    rw [State.judge, quiet.complete]
  · rintro code args rfl fits
    rw [State.judge_whole (by omega) (by omega)]
    exact ⟨fun i => State.record_command, fun r refused => by rw [quiet.record_refused refused]⟩
  · rintro code rfl
    rw [State.judge, quiet.complete]
  · rintro code n args rfl bad
    rw [State.judge, if_neg (by omega), quiet.complete]

end

/-! ### The setup port (R158 to R160) -/

section
variable {s : State} {sel : Select}

/-- R158: the holder of the setup port that releases its select after a FETCH. -/
theorem State.setupFetch_holder (holds : s.ports.holder = some sel) (clocked : Nat) :
    s.setupFetch sel clocked = s.freePort (fetchBytes (s.slot (selectSource sel)) clocked) := if_pos holds

/-- R158: the release of the select that was refused. -/
theorem State.releaseRefused_refused (refused : s.ports.refused = some sel) :
    s.releaseRefused sel = State.reply (s.setPorts fun p => { p with refused := none }) (selectSource sel) busyReply := if_pos refused

/-- R158, R160: the holder's command transaction frees the port and has its bytes judged. -/
theorem State.setupCommand_holder (holds : s.ports.holder = some sel) {bytes : List Byte} (command : bytes.head? ≠ some 0#8) :
    s.setupCommand sel bytes = (s.freePort (List.replicate bytes.length 0#8)).judge (selectSource sel) 32 bytes :=
  (if_neg command).trans (if_pos holds)

end

/-- R158: a select that finds the port free holds it. -/
theorem Ports.assertSelect_free {p : Ports} (free : p.holder = none) (sel : Select) :
    p.assertSelect sel = { p with holder := some sel, spdo := [] } := by
  simp only [Ports.assertSelect, free]

/-- R158: a select that finds the port held by the other is refused. -/
theorem Ports.assertSelect_held {p : Ports} {sel h : Select} (held : p.holder = some h) (other : h ≠ sel) :
    p.assertSelect sel = { p with refused := some sel } := by
  simp only [Ports.assertSelect, held, if_neg other]

/-- With nothing due, a select's assertion moves the ports alone. -/
theorem State.Quiet.exec_selectAssertion {s : State} (quiet : s.Quiet) (sel : Select) :
    exec (.selectAssertion sel) s = .next (s.setPorts fun p => p.assertSelect sel) := by
  rw [exec, execSelectAssertion, quiet.complete]

/-- Settles O45: the port's holder, and what a transaction's bytes spell. -/
theorem setupPortTransactions : Obligations.SetupPortTransactions := by
  intro s sel quiet src
  have source : src = selectSource sel := by cases sel <;> rfl
  rw [source]
  refine ⟨fun free => ?_, fun h held other => ?_, fun refused => ?_, fun holds n => ?_, fun holds bytes command => ?_⟩
  · rw [quiet.exec_selectAssertion, State.setPorts, Ports.assertSelect_free free]
  · rw [quiet.exec_selectAssertion, State.setPorts, Ports.assertSelect_held held other]
  · rw [exec, execRefusedTransaction, quiet.complete, State.releaseRefused_refused refused]
    rfl
  · rw [exec, execFetch, quiet.complete, State.setupFetch_holder holds]
    rfl
  · exact State.Quiet.run_of_judge (s := s.freePort (List.replicate bytes.length 0#8)) quiet ⟨by omega, by omega⟩
      (congrArg Host.Outcome.next (State.setupCommand_holder holds command))

/-! ### The stage port (R161 to R165) -/

/-- R162: the first 16 bytes are acknowledged, and no later one. -/
theorem acknowledges_eq (n : Nat) : acknowledges n = List.replicate (min n 16) true ++ List.replicate (n - 16) false := by
  apply List.ext_getElem
  · simp only [acknowledges_length, List.length_append, List.length_replicate]
    omega
  · intro i within _
    rw [acknowledges_length] at within
    by_cases taken : i < 16 <;> simp [acknowledges, List.getElem_append, within, taken]

/-- R163, R164: a transfer's end by STOP or by a repeated START. -/
theorem Ports.endTransfer_eq (p : Ports) (e : TransferEnd) :
    p.endTransfer e = { p with transfer := .idle, timer := if e = .stop then none else p.timer.map fun _ => p.timeout } := by
  cases e <;> rfl

/-- R161: a START with another address. -/
theorem Ports.startTransfer_other {p : Ports} {a : Byte} (other : a.extractLsb' 1 7 ≠ p.address) :
    p.startTransfer a = { p with acknowledged := false, acks := [], twd := [], transfer := .idle, timer := none } := if_neg other

/-- R161: a START with the part's own address. -/
theorem Ports.startTransfer_own {p : Ports} {a : Byte} (own : a.extractLsb' 1 7 = p.address) :
    p.startTransfer a = { p with
      acknowledged := true, acks := [], twd := [], timer := some p.timeout
      transfer := if a.getLsbD 0 = true then .read p.stage else .write } := if_pos own

section
variable {s : State}

/-- With nothing due, a START moves the ports alone. -/
theorem State.Quiet.exec_startCondition (quiet : s.Quiet) (a : Byte) :
    exec (.startCondition a) s = .next (s.setPorts fun p => p.startTransfer a) := by
  rw [exec, execStartCondition, quiet.complete]

/-- R162: the end of a write transfer, with the acknowledges of its bytes. -/
theorem State.stageRecord_writing (writing : s.ports.transfer = .write) (w : WriteTransfer) :
    s.stageRecord w =
      (s.setPorts fun p => { p.endTransfer w.ending with acks := acknowledges w.bytes.length }).judge .stage 16 w.bytes := if_pos writing

/-- R163: the end of a read transfer. -/
theorem State.stageReply_reading {r : Reply} (reading : s.ports.transfer = .read r) (t : ReadTransfer) :
    s.stageReply t = s.setPorts fun p => { p.endTransfer t.ending with twd := stageBytes r t.count } := by
  simp only [State.stageReply, reading, State.setPorts]

/-- R164: the time-out counter runs out. -/
theorem State.stageTimeOut_running {limit : Nat} (running : s.ports.timer = some limit) :
    s.stageTimeOut = State.raise (s.setPorts fun p => { p with transfer := .idle, timer := none, twd := [] }) .twTimeout := by
  simp only [State.stageTimeOut, running, State.setPorts]

theorem State.stageTimeOut_stopped (stopped : s.ports.timer = none) : s.stageTimeOut = s := by
  simp only [State.stageTimeOut, stopped]

end

/-- Settles O46: the START, the two ways a transfer ends, and the time-out. -/
theorem stagePortTransfers : Obligations.StagePortTransfers := by
  intro s quiet
  refine ⟨fun a other => ?_, fun a own => ?_, fun writing bytes e => ?_, fun r n e reading => ?_, fun limit running => ?_, fun stopped => ?_⟩
  · rw [quiet.exec_startCondition, State.setPorts, Ports.startTransfer_other other]
  · rw [quiet.exec_startCondition, State.setPorts, Ports.startTransfer_own own]
  · intro u
    refine State.Quiet.run_of_judge (s := u) (limit := 16) quiet ⟨by omega, by omega⟩ ?_
    rw [exec, execStageWrite, State.stageRecord_writing writing, State.setPorts, Ports.endTransfer_eq, acknowledges_eq]
  · rw [exec, execStageRead, quiet.complete, State.stageReply_reading reading, State.setPorts, Ports.endTransfer_eq]
    rfl
  · rw [exec, execTimeOut, quiet.complete, State.stageTimeOut_running running]
    rfl
  · rw [exec, execTimeOut, quiet.complete, State.stageTimeOut_stopped stopped]

end Sys2Proof.Machine

/-! ## Sticky flags stay set until they are cleared (R172, R179) -/

namespace Sys2Proof.Machine

/-! ### Operations that move the fault monitor and leave its flags -/

section
variable (s : State)

@[simp] theorem State.causeClears_flags (k : Cause) : (s.causeClears k).fault.flags = s.fault.flags := by
  simp only [State.causeClears]; split <;> rfl

@[simp] theorem State.enterRun_flags : s.enterRun.fault.flags = s.fault.flags := by
  simp [State.enterRun]

@[simp] theorem State.forceSilent_flags : s.forceSilent.fault.flags = s.fault.flags := by
  simp [State.forceSilent]

@[simp] theorem State.takeRecovery_flags : s.takeRecovery.fault.flags = s.fault.flags := by
  simp only [State.takeRecovery]; (repeat' split) <;> simp

@[simp] theorem State.recoveryHop_flags : s.recoveryHop.fault.flags = s.fault.flags := by
  simp only [State.recoveryHop, FaultMonitor.atHop]; split <;> rfl

@[simp] theorem State.hop_flags (a : Analysis) (o : RenderOrder) : (s.hop a o).fault.flags = s.fault.flags := by
  cases o <;> simp [State.hop, State.hopRendering]

@[simp] theorem State.answerHowl_flags (e : Byte) (w : BitVec 16) : (s.answerHowl e w).1.fault.flags = s.fault.flags := by
  simp only [State.answerHowl, answer]; (repeat' split) <;> rfl

@[simp] theorem State.answerClearfault_flags : s.answerClearfault.1.fault.flags = s.fault.flags := by
  simp only [State.answerClearfault]; (repeat' split) <;> simp

end

/-! ### Operations that may raise flags, each keeping a flag that is set -/

section
variable {s : State} {n : Nat} (raised : s.fault.flags.getLsbD n = true)
include raised

@[simp] theorem State.raiseIf_keepsFlag (c : Bool) (f : Flag) : (s.raiseIf c f).fault.flags.getLsbD n = true := by
  cases c <;> simp [raised]

/-! Fields and cue steps (R54, R149 to R155) -/

@[simp] theorem State.writeKey_keepsFlag (v : Fin 12) (x : Source) (p : Bool) : (s.writeKey v x p).1.fault.flags.getLsbD n = true := by
  simp [State.writeKey, raised]

@[simp] theorem State.autoKey_keepsFlag (v : Fin 12) (a : Auto) : (s.autoKey v a).fault.flags.getLsbD n = true := by
  simp [State.autoKey, raised]

@[simp] theorem State.writeStepFields_keepsFlag (c : CueStep) : (s.writeStepFields c).fault.flags.getLsbD n = true := by
  simp only [State.writeStepFields]; (repeat' split) <;> simp [raised]

@[simp] theorem State.setCursor_keepsFlag (k : Fin 64) (c : CueStep) : (s.setCursor k c).fault.flags.getLsbD n = true := by
  simp [State.setCursor, raised]

@[simp] theorem State.enterStep_keepsFlag (k : Fin 64) : (s.enterStep k).fault.flags.getLsbD n = true := by
  simp [State.enterStep, raised]

@[simp] theorem State.enterStepHeld_keepsFlag (k : Fin 64) : (s.enterStepHeld k).fault.flags.getLsbD n = true := by
  simp [State.enterStepHeld, raised]

@[simp] theorem State.oneShotStop_keepsFlag : s.oneShotStop.fault.flags.getLsbD n = true := by
  simp [State.oneShotStop, raised]

@[simp] theorem State.advance_keepsFlag : s.advance.fault.flags.getLsbD n = true := by
  simp only [State.advance]; (repeat' split) <;> simp [raised]

@[simp] theorem State.cueOnset_keepsFlag : s.cueOnset.fault.flags.getLsbD n = true := by
  simp only [State.cueOnset, State.advanceHeld]; (repeat' split) <;> simp [raised]

/-! The chord line (R75 to R97) -/

@[simp] theorem State.appendQueue_keepsFlag (e : QueueEntry) : (s.appendQueue e).fault.flags.getLsbD n = true := by
  simp only [State.appendQueue]; split <;> simp [raised]

@[simp] theorem State.lossActions_keepsFlag (c : LineCondition) : (s.lossActions c).fault.flags.getLsbD n = true := by
  cases c <;> simp [State.lossActions, raised]

@[simp] theorem State.handCondition_keepsFlag (c : LineCondition) : (s.handCondition c).fault.flags.getLsbD n = true := by
  simp only [State.handCondition]; split <;> simp [raised]

@[simp] theorem State.deriveCondition_keepsFlag : s.deriveCondition.fault.flags.getLsbD n = true := by
  simp [State.deriveCondition, raised]

@[simp] theorem State.chordAt_keepsFlag (v : Option Chord) (a : ApplyAt) : (s.chordAt v a).fault.flags.getLsbD n = true := by
  cases a <;> simp [State.chordAt, raised]

@[simp] theorem State.frameContent_keepsFlag (c : FrameContent) : (s.frameContent c).fault.flags.getLsbD n = true := by
  cases c <;> simp [State.frameContent, raised]

@[simp] theorem State.validFrame_keepsFlag (c : FrameContent) : (s.validFrame c).fault.flags.getLsbD n = true := by
  simp only [State.validFrame]; split <;> simp [raised]

@[simp] theorem State.dropFrame_keepsFlag : s.dropFrame.fault.flags.getLsbD n = true := by
  simp [State.dropFrame, raised]

@[simp] theorem State.completeFrame_keepsFlag (k : FrameKind) (d : List Byte) : (s.completeFrame k d).fault.flags.getLsbD n = true := by
  simp only [State.completeFrame]; split <;> simp [raised]

@[simp] theorem State.huntChar_keepsFlag (c : LineChar) : (s.huntChar c).fault.flags.getLsbD n = true := by
  simp only [State.huntChar, State.takeHeader]; (repeat' split) <;> simp [raised]

@[simp] theorem State.frameChar_keepsFlag (k : FrameKind) (m : Nat) (d : List Byte) (c : LineChar) :
    (s.frameChar k m d c).fault.flags.getLsbD n = true := by
  simp only [State.frameChar]; (repeat' split) <;> simp [raised]

@[simp] theorem State.takeChar_keepsFlag : s.takeChar.fault.flags.getLsbD n = true := by
  simp only [State.takeChar]; (repeat' split) <;> simp [raised]

omit raised in
@[simp] theorem State.drain_keepsFlag (m : Nat) : ∀ {s : State}, s.fault.flags.getLsbD n = true → (State.drain m s).fault.flags.getLsbD n = true := by
  induction m with
  | zero => exact id
  | succ m ih => exact fun raised => ih (State.takeChar_keepsFlag raised)

@[simp] theorem State.receive_keepsFlag (c : LineChar) : (s.receive c).fault.flags.getLsbD n = true := by
  simp only [State.receive]; split <;> simp [raised]

@[simp] theorem State.character_keepsFlag (s1 s2 s3 : BitVec 12) : (s.character s1 s2 s3).fault.flags.getLsbD n = true := by
  simp only [State.character]; (repeat' split) <;> simp [raised]

@[simp] theorem State.falseStart_keepsFlag (s1 s2 s3 : Bool) : (s.falseStart s1 s2 s3).fault.flags.getLsbD n = true := by
  simp only [State.falseStart]; split <;> simp [raised]

@[simp] theorem State.lineBreak_keepsFlag : s.lineBreak.fault.flags.getLsbD n = true := by
  simp only [State.lineBreak]; split <;> simp [raised]

@[simp] theorem State.matchOutcome_keepsFlag (m : Match) : (s.matchOutcome m).fault.flags.getLsbD n = true := by
  simp only [State.matchOutcome]; (repeat' split) <;> simp [raised]

@[simp] theorem State.matchEnd_keepsFlag : s.matchEnd.fault.flags.getLsbD n = true := by
  simp only [State.matchEnd]; split <;> simp [raised]

@[simp] theorem State.lineChanged_keepsFlag (o : LineSettings) : (s.lineChanged o).fault.flags.getLsbD n = true := by
  simp only [State.lineChanged, State.disableLine, State.enableLine]; (repeat' split) <;> simp [raised]

@[simp] theorem State.lineThresholds_keepsFlag : s.lineThresholds.fault.flags.getLsbD n = true := by
  simp only [State.lineThresholds]; split <;> simp [raised]

/-! Fault causes, measurements and frames (R5 to R14, R26, R173, R176) -/

@[simp] theorem State.causeAppears_keepsFlag (k : Cause) : (s.causeAppears k).fault.flags.getLsbD n = true := by
  simp only [State.causeAppears, State.enterBypass]; (repeat' split) <;> simp [raised]

@[simp] theorem State.howlAppears_keepsFlag : s.howlAppears.fault.flags.getLsbD n = true := by
  simp only [State.howlAppears]; split <;> simp [raised]

@[simp] theorem State.failLearn_keepsFlag : s.failLearn.fault.flags.getLsbD n = true := by
  simp [State.failLearn, raised]

@[simp] theorem State.rateLoss_keepsFlag : s.rateLoss.fault.flags.getLsbD n = true := by
  simp [State.rateLoss, raised]

@[simp] theorem State.measure_keepsFlag (m : Nat) : (s.measure m).1.fault.flags.getLsbD n = true := by
  simp only [State.measure, State.measureAcquiring, State.measureLocked]; (repeat' split) <;> simp [raised]

@[simp] theorem State.measurement_keepsFlag (m : Nat) (a : Analysis) (o : RenderOrder) : (s.measurement m a o).fault.flags.getLsbD n = true := by
  simp only [State.measurement]; (repeat' split) <;> simp [raised]

@[simp] theorem State.absence_keepsFlag : s.absence.fault.flags.getLsbD n = true := by
  simp only [State.absence, State.rateAbsence]; (repeat' split) <;> simp [raised]

/-! The completions (log entry 1) -/

@[simp] theorem State.takeLearn_keepsFlag : s.takeLearn.fault.flags.getLsbD n = true := by
  simp only [State.takeLearn, State.completeLearn]; (repeat' split) <;> simp [raised]

@[simp] theorem State.takeHowl_keepsFlag : s.takeHowl.fault.flags.getLsbD n = true := by
  simp only [State.takeHowl]; split <;> simp [raised]

@[simp] theorem State.takeNoteStart_keepsFlag : s.takeNoteStart.fault.flags.getLsbD n = true := by
  simp only [State.takeNoteStart, State.noteStart]; split <;> simp [raised]

@[simp] theorem State.takeDwell_keepsFlag : s.takeDwell.fault.flags.getLsbD n = true := by
  simp only [State.takeDwell]; split <;> simp [raised]

@[simp] theorem State.takeSilence_keepsFlag : s.takeSilence.fault.flags.getLsbD n = true := by
  simp only [State.takeSilence]; split <;> simp [raised]

@[simp] theorem State.takeProposal_keepsFlag : s.takeProposal.fault.flags.getLsbD n = true := by
  simp only [State.takeProposal]; split <;> simp [raised]

@[simp] theorem State.completeFirst_keepsFlag : s.completeFirst.fault.flags.getLsbD n = true := by
  simpa [State.completeFirst] using State.takeNoteStart_keepsFlag (s := s.takeLearn.takeHowl.takeRecovery) (by simp [raised])

@[simp] theorem State.completeLast_keepsFlag : s.completeLast.fault.flags.getLsbD n = true := by
  simp [State.completeLast, raised]

@[simp] theorem State.evaluated_keepsFlag : s.evaluated.fault.flags.getLsbD n = true := by
  simp [State.evaluated, raised]

@[simp] theorem State.complete_keepsFlag : s.complete.fault.flags.getLsbD n = true := by
  simp [State.complete, raised]

@[simp] theorem State.completeButDecay_keepsFlag : s.completeButDecay.fault.flags.getLsbD n = true := by
  exact State.takeProposal_keepsFlag (by simp [raised])

@[simp] theorem State.releaseProposal_keepsFlag : s.releaseProposal.fault.flags.getLsbD n = true := by
  simp only [State.releaseProposal]; split <;> simp [raised]

@[simp] theorem State.decayRow_keepsFlag : s.decayRow.fault.flags.getLsbD n = true := by
  simp only [State.decayRow]; split <;> simp [raised]

@[simp] theorem State.settleRow_keepsFlag : s.settleRow.fault.flags.getLsbD n = true := by
  simp only [State.settleRow]; split <;> simp [raised]

@[simp] theorem State.dwellRow_keepsFlag : s.dwellRow.fault.flags.getLsbD n = true := by
  simp only [State.dwellRow]; split <;> simp [raised]

/-! The blocks' answers (R58, R60, R79, R150, R151) -/

@[simp] theorem State.answerSetkey_keepsFlag (src : Manual) (a b : Byte) : (s.answerSetkey src a b).1.fault.flags.getLsbD n = true := by
  simp only [State.answerSetkey, answer]; split <;> simp [raised]

@[simp] theorem State.answerUnpin_keepsFlag (src : Manual) (a : Byte) : (s.answerUnpin src a).1.fault.flags.getLsbD n = true := by
  simp only [State.answerUnpin, unpinAnswer, answer]; (repeat' split) <;> simp [raised]

@[simp] theorem State.answerCuenext_keepsFlag : s.answerCuenext.1.fault.flags.getLsbD n = true := by
  simp only [State.answerCuenext, navigated, answer]; (repeat' split) <;> simp [raised]

@[simp] theorem State.answerCueprev_keepsFlag : s.answerCueprev.1.fault.flags.getLsbD n = true := by
  simp only [State.answerCueprev, navigated, answer]; (repeat' split) <;> simp [raised]

@[simp] theorem State.answerCuegoto_keepsFlag (k : Byte) : (s.answerCuegoto k).1.fault.flags.getLsbD n = true := by
  simp only [State.answerCuegoto, navigated, answer]; (repeat' split) <;> simp [raised]

@[simp] theorem State.answerLine_keepsFlag (b : LineBytes) (e : Option Bool) : (s.answerLine b e).1.fault.flags.getLsbD n = true := by
  simp only [State.answerLine, answer]; split <;> simp [raised]

/-! ### Records and transactions (R158 to R167) -/

/-- R167: a record acts at most as its owning block does. -/
theorem State.decoded_keepsFlag (src : Manual) (c : Cmd) {body : State → Answer} (acts : (body s).1.fault.flags.getLsbD n = true) :
    (s.decoded src c body).fault.flags.getLsbD n = true := by
  simp only [State.decoded]
  split <;> simp [raised, acts]

end

section
variable {n : Nat} {src : Manual} {c : Cmd} {body : State → Answer}
  (acts : ∀ {t : State}, t.fault.flags.getLsbD n = true → (body t).1.fault.flags.getLsbD n = true)
  {s : State} (raised : s.fault.flags.getLsbD n = true)
include acts raised

theorem State.command_keepsFlag : (s.command src c body).fault.flags.getLsbD n = true :=
  State.decoded_keepsFlag (State.complete_keepsFlag raised) src c (acts (State.complete_keepsFlag raised))

theorem State.commandTracking_keepsFlag : (s.commandTracking src c body).fault.flags.getLsbD n = true :=
  State.decoded_keepsFlag (State.completeButDecay_keepsFlag raised) src c (acts (State.completeButDecay_keepsFlag raised))

theorem State.commandMeeting_keepsFlag : (s.commandMeeting src c body).fault.flags.getLsbD n = true :=
  State.takeProposal_keepsFlag
    (State.decoded_keepsFlag (State.evaluated_keepsFlag raised) src c (acts (State.evaluated_keepsFlag raised)))

end

/-- R179: of the commands that are routed, ACKFLAGS and RESTART alone clear flags. -/
theorem State.route_keepsFlag {s : State} {n : Nat} (raised : s.fault.flags.getLsbD n = true) {i : Instr}
    (ackflags : ∀ src mask, i ≠ .ackflags src mask) (restart : ∀ src, i ≠ .restart src) : (s.route i).fault.flags.getLsbD n = true := by
  cases i
  case ackflags src mask => exact absurd rfl (ackflags src mask)
  case restart src => exact absurd rfl (restart src)
  case setkey | setscale | unpin | cuenext | cueprev | cuegoto | loadscale =>
    exact State.commandMeeting_keepsFlag (fun kept => by simp [kept]) raised
  case keytrack | keytrackClear => exact State.commandTracking_keepsFlag (fun kept => by simp [kept]) raised
  case powerOn | frameSync | frameAbsence | measurement | fadeStepCount | grainBoundary | settleComplete | releaseComplete | learnComplete |
      decayEvent | dwellExpiry | howlDeclared | recoveryComplete | character | matchEnd | lineBreak | silenceThreshold | timeOut | fetch |
      commandTransaction | refusedTransaction | stageWrite | stageRead | falseStart | selectAssertion | startCondition => exact raised
  all_goals exact State.command_keepsFlag (fun kept => by simp [kept]) raised

/-- Table 10.1: what a command's arguments spell is that command, of the source that sent them. -/
theorem decodeArgs_names {src : Manual} {c : Cmd} {args : List Byte} {i : Instr} (length : args.length ∈ c.lengths)
    (h : decodeArgs src c args = .command i) :
    ∃ bytes, encodeArgs i = some (src, c, bytes) := by
  cases c
  case cueload =>
    change decodeCueload src args = _ at h
    unfold decodeCueload at h
    (repeat' split at h) <;> cases h
    exact ⟨_, rfl⟩
  all_goals simp only [Cmd.lengths, List.mem_singleton, List.length_eq_succ_iff, List.length_eq_zero_iff] at length
  case hush | resume | cuenext | cueprev | cuestop | clearfault | restart | readstatus | readcontext | readkeytrk =>
    subst length
    cases h
    exact ⟨_, rfl⟩
  all_goals
    cases_type* Exists And
    subst_vars
  case switches =>
    change (if _ = _ then _ else if _ = _ then _ else if _ = _ then _ else _) = _ at h
    (repeat' split at h) <;> cases h <;> exact ⟨_, rfl⟩
  case rate | keytrack =>
    change (if _ = _ then _ else if _ = _ then _ else _) = _ at h
    (repeat' split at h) <;> cases h <;> exact ⟨_, rfl⟩
  all_goals
    cases h
    exact ⟨_, rfl⟩

/-- R167: what the decoder reads is a command that its source may give, under the command's code. -/
theorem decodeRecord_names {src : Manual} {code : Byte} {args : List Byte} {i : Instr} (h : decodeRecord src code args = .command i) :
    ∃ c bytes, encodeArgs i = some (src, c, bytes) ∧ src ∈ c.sources ∧ c.code = code := by
  unfold decodeRecord at h
  split at h
  · cases h
  next c named =>
    have code_eq : c.code = code := by simpa using List.find?_some named
    split at h
    · cases h
    next permitted =>
      split at h
      · cases h
      next length =>
        obtain ⟨bytes, names⟩ := decodeArgs_names (not_not.mp length) h
        exact ⟨c, bytes, names, not_not.mp permitted, code_eq⟩

/-- R158, R167: ACKFLAGS and RESTART are read from PANEL, under their codes. -/
theorem decodeRecord_clears {src : Manual} {code : Byte} {args : List Byte} {i : Instr} (h : decodeRecord src code args = .command i) :
    (∀ x mask, i = .ackflags x mask → src = .panel ∧ code = 0x51#8) ∧ ∀ x, i = .restart x → src = .panel ∧ code = 0x52#8 := by
  obtain ⟨c, bytes, names, permitted, rfl⟩ := decodeRecord_names h
  constructor
  · rintro x mask rfl
    cases names
    exact ⟨List.mem_singleton.mp permitted, rfl⟩
  · rintro x rfl
    cases names
    exact ⟨List.mem_singleton.mp permitted, rfl⟩

section
variable {s : State} {n : Nat} (raised : s.fault.flags.getLsbD n = true)
include raised

/-- R160, R162, R179: the bytes of a transaction that carry neither command from PANEL. -/
theorem State.judge_keepsFlag {src : Manual} (limit : Nat) {bytes : List Byte}
    (panel : src = .panel → bytes.head? ≠ some 0x51#8 ∧ bytes.head? ≠ some 0x52#8) :
    (s.judge src limit bytes).fault.flags.getLsbD n = true := by
  obtain ⟨_, e⟩ | ⟨code, args, rfl, _, e⟩ | ⟨code, rest, _, e⟩ := s.judge_cases src limit bytes <;> rw [e]
  · exact State.complete_keepsFlag raised
  · unfold State.record
    split
    next i decoded =>
      obtain ⟨ackflags, restart⟩ := decodeRecord_clears decoded
      refine State.route_keepsFlag raised (fun x mask spelt => ?_) fun x spelt => ?_
      · obtain ⟨sent, rfl⟩ := ackflags x mask spelt
        exact (panel sent).1 rfl
      · obtain ⟨sent, rfl⟩ := restart x spelt
        exact (panel sent).2 rfl
    · simp [raised]
  · simp [raised]

@[simp] theorem State.setupFetch_keepsFlag (sel : Select) (m : Nat) : (s.setupFetch sel m).fault.flags.getLsbD n = true := by
  simp only [State.setupFetch]; split <;> simp [raised]

/-- R158, R160: a setup port transaction. -/
theorem State.setupCommand_keepsFlag {sel : Select} {bytes : List Byte}
    (panel : sel = .psel → bytes.head? ≠ some 0x51#8 ∧ bytes.head? ≠ some 0x52#8) :
    (s.setupCommand sel bytes).fault.flags.getLsbD n = true := by
  unfold State.setupCommand
  split
  · simp [raised]
  split
  · exact State.judge_keepsFlag (s := s.freePort _) (by simp [raised]) 32 (by cases sel <;> simp_all [selectSource])
  · simp [raised]

/-- R162: a stage transfer can carry neither command. -/
theorem State.stageRecord_keepsFlag (w : WriteTransfer) : (s.stageRecord w).fault.flags.getLsbD n = true := by
  unfold State.stageRecord
  split
  · exact State.judge_keepsFlag (src := .stage)
      (s := s.setPorts fun p => { p.endTransfer w.ending with acks := acknowledges w.bytes.length }) raised 16 nofun
  · exact State.complete_keepsFlag raised

@[simp] theorem State.stageReply_keepsFlag (r : ReadTransfer) : (s.stageReply r).fault.flags.getLsbD n = true := by
  simp only [State.stageReply]; split <;> exact raised

@[simp] theorem State.stageTimeOut_keepsFlag : s.stageTimeOut.fault.flags.getLsbD n = true := by
  simp only [State.stageTimeOut]; split <;> simp [raised]

/-- R179: every command but ACKFLAGS, RESTART, power-on and a PANEL transaction that carries one of the first two. -/
theorem exec_keepsFlag {t : State} {c : Instr} (e : exec c s = .next t) (ackflags : ∀ src mask, c ≠ .ackflags src mask)
    (restart : ∀ src, c ≠ .restart src) (powerOn : ∀ sa, c ≠ .powerOn sa)
    (panel : ∀ bytes, c = .commandTransaction .psel bytes → bytes.head? ≠ some 0x51#8 ∧ bytes.head? ≠ some 0x52#8) :
    t.fault.flags.getLsbD n = true := by
  have routed := State.route_keepsFlag raised ackflags restart
  cases c <;> injection e with e <;> subst e
  case powerOn sa => exact absurd rfl (powerOn sa)
  case commandTransaction sel bytes => exact State.setupCommand_keepsFlag raised fun sent => panel bytes (by rw [sent])
  case stageWrite w => exact State.stageRecord_keepsFlag raised w
  case character | matchEnd => exact State.takeProposal_keepsFlag (by simp [raised])
  case frameSync | frameAbsence | measurement | fadeStepCount | grainBoundary | settleComplete | releaseComplete | learnComplete | decayEvent |
      dwellExpiry | howlDeclared | recoveryComplete | lineBreak | silenceThreshold | timeOut | fetch | refusedTransaction | stageRead |
      falseStart => simp [raised]
  case selectAssertion | startCondition => exact State.complete_keepsFlag raised
  all_goals exact routed

end

/-! ### ATN (R172) -/

/-- R172: ATN is asserted while a flag is set. -/
theorem State.atn_iff (s : State) : s.atn = true ↔ ∃ i, i < 16 ∧ s.fault.flags.getLsbD i = true := by
  rw [State.atn, bne_iff_ne, ne_eq, ← not_iff_not, not_not]
  push Not
  refine ⟨fun none i _ => by simp [none], fun none => BitVec.eq_of_getLsbD_eq fun i within => ?_⟩
  simpa using none i within

/-- Settles O49: the flags that ACKFLAGS names, ATN, and every other command. -/
theorem flagsStayUntilCleared : Obligations.FlagsStayUntilCleared :=
  ⟨fun s mask quiet => congrArg Host.Outcome.next
      (quiet.command_answers (src := .panel) (c := .ackflags) (body := fun t => t.answerAckflags mask) (by decide) rfl),
    State.atn_iff, fun _ _ _ e ackflags restart powerOn panel _ raised => exec_keepsFlag raised e ackflags restart powerOn panel⟩

end Sys2Proof.Machine

/-! ## O1: a step and the queue of commands -/

namespace Sys2Proof.Machine

/-- A queue with a command at its front: the command runs on the state that keeps the rest (log entry 7). -/
theorem step_of_cons {s : State} {c : Instr} {rest : List Instr} (front : s.pending = c :: rest) :
    step s = exec c { s with pending := rest } := by
  rw [step, front]

/-- An empty queue: the part idles (log entry 7). -/
theorem step_of_nil {s : State} (empty : s.pending = []) : step s = .next s := by
  rw [step, empty]

/-- Settles O1: the step by the two shapes of the queue. -/
theorem stepRunsTheFrontCommand : Obligations.StepRunsTheFrontCommand :=
  ⟨fun c s => step_of_cons (s := { s with pending := c :: s.pending }) rfl, fun _ => step_of_nil⟩

end Sys2Proof.Machine

/-! ## Named slots stay filled (R38, R43, R52, R94, R145) -/

namespace Sys2Proof.Machine

/-! ### Values that a field holds or may release -/

/-- R52: the value in force and the value of the shadow, which a release brings into force, both have `p`. -/
def Field.Holds {α : Type} (p : α → Prop) (f : Field α) : Prop := p f.value ∧ ∀ x ∈ f.shadow, p x.value

section
variable {α : Type} {p q : α → Prop} {f : Field α}

theorem Field.Holds.write (h : f.Holds p) {v : α} (hv : p v) (x : Source) (pin : Bool) : (f.write v x pin).1.Holds p := by
  obtain ⟨value, _⟩ := id h
  cases x with
  | auto a =>
    obtain ⟨_, e⟩ | ⟨_, _, e⟩ := f.write_auto v a pin <;> rw [e]
    · exact ⟨hv, by simp⟩
    · exact ⟨value, by simpa using hv⟩
  | manual m =>
    obtain ⟨_, e⟩ | ⟨_, _, _, e⟩ | ⟨_, _, _, e⟩ := f.write_manual v m pin <;> rw [e]
    · exact ⟨hv, by simp⟩
    · exact ⟨hv, by simp⟩
    · exact h

theorem Field.Holds.release (h : f.Holds p) (m : Manual) : (f.release m).1.Holds p := by
  obtain ⟨_, shadow⟩ := id h
  obtain ⟨_, e⟩ | ⟨_, _, _, e⟩ | ⟨_, _, _, ⟨x, shadowed, e⟩ | ⟨_, e⟩⟩ := f.release_cases m <;> rw [e]
  · exact h
  · exact h
  · exact ⟨shadow x shadowed, by simp⟩
  · exact h

theorem Field.Holds.mono (h : f.Holds p) (le : ∀ v, p v → q v) : f.Holds q := ⟨le _ h.1, fun x mem => le _ (h.2 x mem)⟩

end

/-! ### Tables in which everything named is filled -/

/-- R145: the slots that a cue step names are non-empty. -/
def Tables.StepFilled (t : Tables) (c : CueStep) : Prop := (∀ k ∈ c.scale, t.scaleFilled k = true) ∧ ∀ v ∈ c.chord, t.ChordFilled v

/-- R93: the shapes that a match scores are those of slots that are non-empty still. -/
def Tables.Scores (t : Tables) (m : Match) : Prop := ∀ k : Fin 16, m.shapes.getD k.val 0#12 ≠ 0#12 → t.shapeFilled k = true

/-- R38, R43, R52, R94, R145: `State.SlotsFilled`, by the parts of a state that it reads. -/
structure Tables.Fills (t : Tables) (scale : Field (Fin 8)) (chord : Field (Option Chord)) (queue : List QueueEntry) (matcher : Option Match) :
    Prop where
  slotZero : t.scaleFilled 0 = true
  scale : scale.Holds fun k => t.scaleFilled k = true
  chord : chord.Holds t.ChordFilled
  queue : ∀ e ∈ queue, t.ChordFilled e.value
  cues : ∀ c ∈ t.cues, t.StepFilled c
  matcher : ∀ m ∈ matcher, t.Scores m

/-- Everything that a state names is filled. -/
def State.NamesFilled (s : State) : Prop := s.tables.Fills s.ctx.scale s.ctx.chord s.queue s.matcher

theorem State.slotsFilled_iff_namesFilled (s : State) : s.SlotsFilled ↔ s.NamesFilled :=
  ⟨fun ⟨slotZero, scale, scaleShadow, chord, chordShadow, queue, cues, matcher⟩ =>
      ⟨slotZero, ⟨scale, scaleShadow⟩, ⟨chord, chordShadow⟩, queue, cues, matcher⟩,
    fun ⟨slotZero, ⟨scale, scaleShadow⟩, ⟨chord, chordShadow⟩, queue, cues, matcher⟩ =>
      ⟨slotZero, scale, scaleShadow, chord, chordShadow, queue, cues, matcher⟩⟩

theorem Tables.chordFilled_none (t : Tables) : t.ChordFilled none := fun _ mem => nomatch mem

theorem Tables.chordFilled_some {t : Tables} {c : Chord} (h : t.shapeFilled c.shape = true) : t.ChordFilled (some c) := by
  rintro _ ⟨⟩; exact h

/-! ### Loads (R41, R44) -/

/-- R41, R44: a load with a non-empty member set leaves every slot filled that was. -/
structure Tables.Grows (t u : Tables) : Prop where
  scale : ∀ k, t.scaleFilled k = true → u.scaleFilled k = true
  shape : ∀ k, t.shapeFilled k = true → u.shapeFilled k = true
  cues : u.cues = t.cues

/-- A list after an entry has been replaced, read where it was read before: the new entry, or what it held. -/
theorem List.getD_set_cases {α : Type} (l : List α) (i k : Nat) (a d : α) : (l.set i a).getD k d = a ∨ (l.set i a).getD k d = l.getD k d := by
  simp only [List.getD_eq_getElem?_getD, List.getElem?_set]
  split
  next same =>
    subst same
    split
    · exact .inl rfl
    next beyond => exact .inr (by rw [List.getElem?_eq_none (Nat.le_of_not_lt beyond)])
  next => exact .inr rfl

theorem Tables.grows_scale (t : Tables) {x : ScaleSlot} (filled : x.members ≠ 0#12) (i : Nat) :
    t.Grows { t with scales := t.scales.set i x } where
  scale k before := by
    simp only [Tables.scaleFilled, bne_iff_ne] at before ⊢
    obtain e | e := List.getD_set_cases t.scales i k.val x ⟨0#12, .parallel⟩ <;> rw [e] <;> assumption
  shape _ before := before
  cues := rfl

theorem Tables.grows_shape (t : Tables) {x : PitchSet} (filled : x ≠ 0#12) (i : Nat) : t.Grows { t with shapes := t.shapes.set i x } where
  scale _ before := before
  shape k before := by
    simp only [Tables.shapeFilled, bne_iff_ne] at before ⊢
    obtain e | e := List.getD_set_cases t.shapes i k.val x 0#12 <;> rw [e] <;> assumption
  cues := rfl

section
variable {t u : Tables} {scale : Field (Fin 8)} {chord : Field (Option Chord)} {queue : List QueueEntry} {matcher : Option Match}

theorem Tables.Grows.chordFilled (g : t.Grows u) (v : Option Chord) (h : t.ChordFilled v) : u.ChordFilled v :=
  fun c mem => g.shape _ (h c mem)

theorem Tables.Fills.grown (h : t.Fills scale chord queue matcher) (g : t.Grows u) : u.Fills scale chord queue matcher where
  slotZero := g.scale _ h.slotZero
  scale := h.scale.mono g.scale
  chord := h.chord.mono g.chordFilled
  queue e mem := g.chordFilled _ (h.queue e mem)
  cues c mem := by
    obtain ⟨scale, chord⟩ := h.cues c (g.cues ▸ mem)
    exact ⟨fun k named => g.scale k (scale k named), fun v named => g.chordFilled v (chord v named)⟩
  matcher m mem k scored := g.shape k (h.matcher m mem k scored)

/-- R145: the step under a number, which is the empty step beyond the list, names filled slots. -/
theorem Tables.Fills.cueStep (h : t.Fills scale chord queue matcher) (k : Fin 64) : t.StepFilled (t.cueStep k) := by
  rw [Tables.cueStep, List.getD_eq_getElem?_getD]
  cases e : t.cues[k.val]? with
  | none => simp [Tables.StepFilled, cueStepEmpty]
  | some c => exact h.cues c (List.mem_of_getElem? e)

end

/-! ### Chords that the chord line brings (R84, R92) -/

/-- R92: the winner is one of the pairs scored. -/
theorem matchWinner_mem {shapes : List PitchSet} {notes : List Nat} {w : Candidate} (h : matchWinner shapes notes = some w) :
    w ∈ candidates shapes (notesSet notes) := by
  have origin (l : List Candidate) (best : Option Candidate) (found : l.foldl (keepBetter (lowestClass notes)) best = some w) :
      w ∈ l ∨ best = some w := by
    induction l generalizing best with
    | nil => exact .inr found
    | cons c l ih =>
      obtain rest | kept := ih _ found
      · exact .inl (List.mem_cons_of_mem c rest)
      · exact (keepBetter_origin kept).imp (fun same => List.mem_cons.mpr (.inl same)) id
  rw [matchWinner_eq_foldl] at h
  exact (origin _ _ h).resolve_right (by simp)

/-- R92: an accepted match names a shape slot that was non-empty when the match began. -/
theorem matchResult_shape {shapes : List PitchSet} {notes : List Nat} {c : Chord} (h : matchResult shapes notes = some c) :
    shapes.getD c.shape.val 0#12 ≠ 0#12 := by
  simp only [matchResult] at h
  split at h
  next w won =>
    split at h
    · obtain rfl := Option.some.inj h
      exact (mem_candidates.mp (matchWinner_mem won)).2.1
    · cases h
  · cases h

/-- R84, R85: the slots that a frame's content names are non-empty. -/
def FrameContent.Filled (t : Tables) : FrameContent → Prop
  | .chord v _ => t.ChordFilled v
  | .notes _ _ => True
  | .key _ k => t.scaleFilled k = true
  | .alive => True

theorem chordContent_filled {t : Tables} {r k a : Byte} {bass : Option (Fin 12)} {f : FrameContent}
    (h : chordContent t r k a bass = some f) : f.Filled t := by
  simp only [chordContent] at h
  split at h
  · split at h
    next filled =>
      obtain rfl := Option.some.inj h
      exact Tables.chordFilled_some filled
    · cases h
  · cases h

/-- R84: a frame that passes its checks names filled slots alone. -/
theorem checkFrame_filled {t : Tables} {k : FrameKind} {data : List Byte} {f : FrameContent} (h : checkFrame t k data = some f) :
    f.Filled t := by
  cases k with
  | chord =>
    match data with
    | [] | [_] | [_, _] | _ :: _ :: _ :: _ :: _ :: _ => cases (h : none = some f)
    | [r, k, a] => exact chordContent_filled (checkFrame_chord t r k a ▸ h)
    | [r, k, a, b] =>
      rw [checkFrame_chord_bass] at h
      obtain ⟨_, _, content⟩ := Option.bind_eq_some_iff.mp h
      exact chordContent_filled content
  | notes =>
    match data with
    | [] | [_] => cases (h : none = some f)
    | a :: n :: rest =>
      rw [checkFrame_notes] at h
      obtain ⟨_, _, content⟩ := Option.bind_eq_some_iff.mp h
      obtain ⟨_, ⟨⟩⟩ := Option.ite_none_right_eq_some.mp content
      trivial
  | key =>
    match data with
    | [] | [_] | _ :: _ :: _ :: _ => cases (h : none = some f)
    | [x, y] =>
      rw [checkFrame_key] at h
      obtain ⟨_, _, slot⟩ := Option.bind_eq_some_iff.mp h
      obtain ⟨_, _, content⟩ := Option.bind_eq_some_iff.mp slot
      obtain ⟨filled, ⟨⟩⟩ := Option.ite_none_right_eq_some.mp content
      exact filled
  | clear =>
    match data with
    | [] | _ :: _ :: _ => cases (h : none = some f)
    | [a] =>
      obtain ⟨_, _, rfl⟩ := Option.map_eq_some_iff.mp h
      exact t.chordFilled_none
  | alive =>
    match data with
    | _ :: _ => cases (h : none = some f)
    | [] =>
      obtain rfl := Option.some.inj (h : some .alive = some f)
      trivial

/-! ### Operations that keep every name filled -/

theorem State.NamesFilled.kept {s t : State} (h : s.NamesFilled) (tables : s.tables.Grows t.tables) (ctx : t.ctx = s.ctx)
    (queue : t.queue = s.queue) (matcher : t.matcher = s.matcher) : t.NamesFilled := by
  rw [State.NamesFilled, ctx, queue, matcher]; exact h.grown tables

theorem State.NamesFilled.same {s t : State} (h : s.NamesFilled) (tables : t.tables = s.tables) (ctx : t.ctx = s.ctx)
    (queue : t.queue = s.queue) (matcher : t.matcher = s.matcher) : t.NamesFilled := by
  rw [State.NamesFilled, tables, ctx, queue, matcher]; exact h

section
variable {s : State} (h : s.NamesFilled)
include h

theorem State.NamesFilled.published (before : Context) (table : Bool) : (s.publishChanges before table).NamesFilled :=
  h.same (by simp) (by simp) (by simp) (by simp)

theorem State.NamesFilled.writeKey (v : Fin 12) (x : Source) (p : Bool) : (s.writeKey v x p).1.NamesFilled := by
  simp only [State.NamesFilled, State.writeKey, State.raiseIf_frame]
  exact h

theorem State.NamesFilled.writeScale {v : Fin 8} (filled : s.tables.scaleFilled v = true) (x : Source) (p : Bool) :
    (s.writeScale v x p).1.NamesFilled :=
  { h with scale := h.scale.write filled x p }

theorem State.NamesFilled.writeChord {v : Option Chord} (filled : s.tables.ChordFilled v) (x : Source) (p : Bool) :
    (s.writeChord v x p).1.NamesFilled :=
  { h with chord := h.chord.write filled x p }

theorem State.NamesFilled.autoKey (v : Fin 12) (a : Auto) : (s.autoKey v a).NamesFilled := h.writeKey v _ _

theorem State.NamesFilled.autoScale {v : Fin 8} (filled : s.tables.scaleFilled v = true) (a : Auto) : (s.autoScale v a).NamesFilled :=
  h.writeScale filled _ _

theorem State.NamesFilled.autoChord {v : Option Chord} (filled : s.tables.ChordFilled v) (a : Auto) : (s.autoChord v a).NamesFilled :=
  h.writeChord filled _ _

/-- R97: a flush names nothing more. -/
theorem State.NamesFilled.flushQueue : s.flushQueue.NamesFilled where
  slotZero := h.slotZero
  scale := h.scale
  chord := h.chord
  queue _ mem := nomatch mem
  cues := h.cues
  matcher m mem := by
    obtain ⟨n, matched, rfl⟩ := Option.map_eq_some_iff.mp mem
    exact h.matcher n matched

theorem State.NamesFilled.setSwitches (w : BitVec 8) : (s.setSwitches w).NamesFilled := by
  obtain ⟨_, e⟩ | ⟨_, e⟩ := s.setSwitches_cases w <;> rw [e]
  · exact State.NamesFilled.flushQueue (by exact h)
  · exact h

/-- R95: an append, which may push the head out. -/
theorem State.NamesFilled.append {x : QueueEntry} (filled : s.tables.ChordFilled x.value) : (s.appendQueue x).NamesFilled := by
  have last : ∀ e ∈ [x], s.tables.ChordFilled e.value := by simpa using filled
  obtain ⟨_, e⟩ | ⟨_, e⟩ := s.appendQueue_cases x <;> rw [e]
  · exact { h with queue := List.forall_mem_append.mpr ⟨h.queue, last⟩ }
  · exact { h with queue := List.forall_mem_append.mpr ⟨fun e mem => h.queue e (List.mem_of_mem_drop mem), last⟩ }

/-- R96: the head of the queue, if it is taken, becomes the chord. -/
theorem State.NamesFilled.takeHead (t : Trigger) : (s.takeHead t).NamesFilled := by
  obtain ⟨v, rest, queue, e⟩ | ⟨_, e⟩ := s.takeHead_cases t <;> rw [e]
  · have entries := List.forall_mem_cons.mp (queue ▸ h.queue)
    have taken : State.NamesFilled { s with queue := rest } := { h with queue := entries.2 }
    exact taken.autoChord entries.1 _
  · exact h

/-! Cue steps and note operations (R71, R72, R149, R153) -/

theorem State.NamesFilled.stepWritten {c : CueStep} (filled : s.tables.StepFilled c) :
    ((s.writeStepFields c).writeStepSwitches c).NamesFilled := by
  have fields : (s.writeStepFields c).NamesFilled := by
    rw [State.writeStepFields_eq]
    refine { h with scale := ?_, chord := ?_ }
    · dsimp only
      split
      next v named => exact h.scale.write (filled.1 v named) _ _
      · exact h.scale
    · dsimp only
      split
      next v named => exact h.chord.write (filled.2 v named) _ _
      · exact h.chord
  exact fields.setSwitches _

theorem State.NamesFilled.enterStep (k : Fin 64) : (s.enterStep k).NamesFilled :=
  (h.stepWritten (h.cueStep k)).same (by simp [State.enterStep]) (by simp [State.enterStep]) (by simp [State.enterStep])
    (by simp [State.enterStep])

theorem State.NamesFilled.enterStepHeld (k : Fin 64) : (s.enterStepHeld k).NamesFilled :=
  (h.stepWritten (h.cueStep k)).same (by simp [State.enterStepHeld]) (by simp [State.enterStepHeld]) (by simp [State.enterStepHeld])
    (by simp [State.enterStepHeld])

theorem State.NamesFilled.advance : s.advance.NamesFilled := by
  simp only [State.advance]
  split
  · exact h
  split
  · exact h.enterStep _
  · exact h

theorem State.NamesFilled.cueOnset : s.cueOnset.NamesFilled := by
  simp only [State.cueOnset, State.advanceHeld]
  (repeat' split) <;> first
    | exact h
    | exact h.enterStepHeld _

theorem State.NamesFilled.noteStart (k : PublicationKind) : (s.noteStart k).NamesFilled :=
  (h.takeHead .onset).cueOnset.same (by simp [State.noteStart]) (by simp [State.noteStart]) (by simp [State.noteStart])
    (by simp [State.noteStart])

theorem State.NamesFilled.noteOff (n : Nat) : (s.noteOff n).NamesFilled :=
  (h.takeHead .phrase).same (by simp [State.noteOff]) (by simp [State.noteOff]) (by simp [State.noteOff]) (by simp [State.noteOff])

/-! The chord line (R77, R82 to R93) -/

theorem State.NamesFilled.breakAction : s.breakAction.NamesFilled := by
  simp only [State.breakAction]
  split
  · exact h.autoChord s.tables.chordFilled_none _
  · exact h

theorem State.NamesFilled.lossActions (c : LineCondition) : (s.lossActions c).NamesFilled := by
  cases c
  case lost => exact State.NamesFilled.breakAction (by exact h.flushQueue)
  case broken => exact h.flushQueue.breakAction
  all_goals exact h

theorem State.NamesFilled.handCondition (c : LineCondition) : (s.handCondition c).NamesFilled := by
  simp only [State.handCondition]
  split
  · exact h
  · exact State.NamesFilled.published (by exact h.lossActions c) _ _

theorem State.NamesFilled.chordAt {v : Option Chord} (filled : s.tables.ChordFilled v) (a : ApplyAt) : (s.chordAt v a).NamesFilled := by
  cases a with
  | now => exact (h.flushQueue.autoChord filled _).published _ _
  | onset => exact h.append filled
  | phrase => exact h.append filled

theorem State.NamesFilled.frameContent {f : FrameContent} (filled : f.Filled s.tables) : (s.frameContent f).NamesFilled := by
  cases f with
  | chord v a => exact h.chordAt filled a
  | notes a l =>
    refine { h with matcher := ?_ }
    rintro _ ⟨⟩ k scored
    simpa [Tables.shapeFilled] using scored
  | key k x =>
    have same : (s.autoKey k .chordline).tables = s.tables := by simp
    exact ((h.autoKey k _).autoScale (by rw [same]; exact filled) _).published _ _
  | alive => exact h

theorem State.NamesFilled.validFrame {f : FrameContent} (filled : f.Filled s.tables) : (s.validFrame f).NamesFilled := by
  have derived : (State.deriveCondition
      { s with line := { s.line with assembler := .hunt, silence := 0, frameSeen := true, broken := false } }).NamesFilled :=
    State.NamesFilled.handCondition (by exact h) _
  simp only [State.validFrame]
  split
  · exact derived.frameContent (by simpa using filled)
  · exact derived

theorem State.NamesFilled.completeFrame (k : FrameKind) (d : List Byte) : (s.completeFrame k d).NamesFilled := by
  simp only [State.completeFrame]
  split
  next passed => exact h.validFrame (checkFrame_filled passed)
  · exact h

theorem State.NamesFilled.huntChar (c : LineChar) : (s.huntChar c).NamesFilled := by
  simp only [State.huntChar, State.takeHeader]
  (repeat' split) <;> first
    | exact h
    | exact h.completeFrame _ _

theorem State.NamesFilled.frameChar (k : FrameKind) (n : Nat) (d : List Byte) (c : LineChar) : (s.frameChar k n d c).NamesFilled := by
  simp only [State.frameChar]
  (repeat' split) <;> first
    | exact h
    | exact h.huntChar c
    | exact h.completeFrame _ _
    | exact State.NamesFilled.huntChar (s := s.raise .frameDrop) h c

theorem State.NamesFilled.takeChar : s.takeChar.NamesFilled := by
  simp only [State.takeChar]
  (repeat' split) <;> first
    | exact h
    | exact State.NamesFilled.huntChar (by exact h) _
    | exact State.NamesFilled.frameChar (by exact h) _ _ _ _

omit h in
theorem State.NamesFilled.drain (n : Nat) {s : State} (h : s.NamesFilled) : (State.drain n s).NamesFilled := by
  induction n generalizing s with
  | zero => exact h
  | succ n ih => exact ih h.takeChar

theorem State.NamesFilled.receive (c : LineChar) : (s.receive c).NamesFilled := by
  simp only [State.receive]
  split
  · exact .drain 2 h
  · exact h

theorem State.NamesFilled.character (s1 s2 s3 : BitVec 12) : (s.character s1 s2 s3).NamesFilled := by
  have noisy (c : Bool) : (s.raiseIf c .noise).NamesFilled := h.same (by simp) (by simp) (by simp) (by simp)
  simp only [State.character]
  (repeat' split) <;> first
    | exact h
    | exact noisy _
    | exact State.NamesFilled.receive (by exact noisy _) _

/-- R93: the result of a match, in the slots that were non-empty when it began. -/
theorem State.NamesFilled.matchOutcome {m : Match} (scores : s.tables.Scores m) : (s.matchOutcome m).NamesFilled := by
  simp only [State.matchOutcome]
  split
  · exact h
  split
  · exact h
  next c found => exact h.chordAt (Tables.chordFilled_some (scores c.shape (matchResult_shape found))) _

theorem State.NamesFilled.matchEnd : s.matchEnd.NamesFilled := by
  simp only [State.matchEnd]
  split
  · exact h
  next m running =>
    have ended : State.NamesFilled { s with matcher := none } := { h with matcher := fun _ mem => nomatch mem }
    exact .drain 2 (ended.matchOutcome (h.matcher m running))

theorem State.NamesFilled.lineChanged (o : LineSettings) : (s.lineChanged o).NamesFilled := by
  simp only [State.lineChanged]
  (repeat' split) <;> first
    | exact State.NamesFilled.handCondition (by exact h.flushQueue) _
    | exact State.NamesFilled.handCondition (by exact h) _
    | exact h

/-! Records (R41, R44, R58, R59, R60, R63, R146, R170) -/

theorem State.NamesFilled.switchWrite (w m : BitVec 8) : (s.switchWrite w m).1.NamesFilled := (h.setSwitches w).published _ _

theorem State.NamesFilled.setscale (src : Manual) (slot pin : Byte) : (s.answerSetscale src slot pin).1.NamesFilled := by
  simp only [State.answerSetscale, answer]
  split
  · split
    next filled => exact (h.writeScale filled _ _).published _ _
    · exact h
  · exact h

theorem State.NamesFilled.setchord (src : Manual) (pin : Byte) (b : ChordBytes) : (s.answerSetchord src pin b).1.NamesFilled := by
  simp only [State.answerSetchord, State.answerChordWrite, answer]
  split
  · exact h
  split
  · exact (h.writeChord s.tables.chordFilled_none _ _).published _ _
  split
  · split
    · exact h
    split
    next filled => exact (h.writeChord (Tables.chordFilled_some filled) _ _).published _ _
    · exact h
  · exact h

/-- R61: a shadow that a release brings into force names a filled slot. -/
theorem State.NamesFilled.unpin (src : Manual) (field : Byte) : (s.answerUnpin src field).1.NamesFilled := by
  simp only [State.answerUnpin, unpinAnswer, answer]
  split
  · split
    · exact h
    · refine State.NamesFilled.published ?_ _ _
      simp only [State.NamesFilled, State.raiseIf_frame]
      exact h
  split
  · split
    · exact h
    · exact State.NamesFilled.published (by exact { h with scale := h.scale.release src }) _ _
  split
  · split
    · exact h
    · exact State.NamesFilled.published (by exact { h with chord := h.chord.release src }) _ _
  · exact h

/-- R146, check 3. -/
theorem State.NamesFilled.cueload (step : Byte) (b : CueBytes) : (s.answerCueload step b).1.NamesFilled := by
  simp only [State.answerCueload, answer]
  split
  · split
    · exact h
    split
    · exact h
    next c _ _ _ named =>
      have filled : s.tables.StepFilled c := by
        simpa [slotsFilled, Tables.StepFilled, Tables.ChordFilled, Option.all_eq_true] using named
      exact { h with cues := fun x mem => (List.mem_or_eq_of_mem_set mem).elim (h.cues x) (fun new => new ▸ filled) }
  · exact h

theorem State.NamesFilled.loadscale (slot : Byte) (members : BitVec 16) (rule : Byte) :
    (s.answerLoadscale slot members rule).1.NamesFilled := by
  simp only [State.answerLoadscale, answer]
  split
  · split
    · exact h
    split
    next m _ zero =>
      have filled : m ≠ 0#12 := by rintro rfl; simp at zero
      exact State.NamesFilled.published (by exact h.grown (s.tables.grows_scale filled _)) _ _
    · exact h
  · exact h

theorem State.NamesFilled.loadshape (slot : Byte) (members : BitVec 16) : (s.answerLoadshape slot members).1.NamesFilled := by
  simp only [State.answerLoadshape, answer]
  split
  · exact h
  split
  · exact h
  split
  next m _ formed =>
    have filled : m ≠ 0#12 := by rintro rfl; simp at formed
    exact State.NamesFilled.published (by exact h.grown (s.tables.grows_shape filled _)) _ _
  · exact h

/-- R170: after RESTART the SCALE field names slot 0, and nothing else names a slot but the cue steps. -/
theorem State.NamesFilled.restart : s.answerRestart.1.NamesFilled := by
  have reset : s.resetRuntime.NamesFilled :=
    { slotZero := h.slotZero
      scale := ⟨h.slotZero, fun _ mem => nomatch mem⟩
      chord := ⟨s.tables.chordFilled_none, fun _ mem => nomatch mem⟩
      queue := fun _ mem => nomatch mem
      cues := h.cues
      matcher := fun _ mem => nomatch mem }
  exact State.NamesFilled.published (by exact reset) _ _

end

theorem namesFilled_kept : Kept State.NamesFilled := by
  constructor
  case powerOn => intro s sa _; exact (State.slotsFilled_iff_namesFilled _).mp (State.powerOn_slotsFilled sa)
  case takeNoteStart =>
    intro s h; simp only [State.takeNoteStart]; split
    · exact h.noteStart _
    · exact h
  case takeNoteOff =>
    intro s h; simp only [State.takeNoteOff]; split <;> first
      | exact h.noteOff _
      | exact h
  case takeProposal =>
    intro s h
    obtain ⟨_, e⟩ | ⟨k, _, e⟩ := s.takeProposal_cases <;> rw [e]
    · exact h
    · exact State.NamesFilled.published (.autoKey (by exact h) k _) _ _
  case takeDwell =>
    intro s h; simp only [State.takeDwell]; split
    · exact State.NamesFilled.advance (by exact h)
    · exact h
  case takeSilence =>
    intro s h; simp only [State.takeSilence]; split
    · exact State.NamesFilled.handCondition (by exact h) _
    · exact h
  case character => intro s s1 s2 s3 h; exact h.character s1 s2 s3
  case lineBreak =>
    intro s h; simp only [State.lineBreak]; split
    · exact State.NamesFilled.handCondition (by exact h) _
    · exact h
  case matchEnd => intro s h; exact h.matchEnd
  case setkey =>
    intro s src k p h
    simp only [State.answerSetkey, answer]
    split
    · exact (h.writeKey _ _ _).published _ _
    · exact h
  case setscale => intro s src k p h; exact h.setscale src k p
  case setchord => intro s src p b h; exact h.setchord src p b
  case unpin => intro s src f h; exact h.unpin src f
  case put => intro s src arg h; exact h.switchWrite _ _
  case set => intro s src arg h; exact h.switchWrite _ _
  case clear => intro s src arg h; exact h.switchWrite _ _
  case locksw => intro s mask h; exact h
  case hush => intro s src h; simp only [State.answerHush]; split <;> exact h
  case resume => intro s src h; simp only [State.answerResume, answer]; (repeat' split) <;> exact h
  case cuenext =>
    intro s h
    simp only [State.answerCuenext, navigated, answer]
    (repeat' split) <;> first
      | exact h
      | exact h.enterStep _
  case cueprev =>
    intro s h
    simp only [State.answerCueprev, navigated, answer]
    (repeat' split) <;> first
      | exact h
      | exact h.enterStep _
  case cuegoto =>
    intro s k h
    simp only [State.answerCuegoto, navigated, answer]
    (repeat' split) <;> first
      | exact h
      | exact h.enterStep _
  case cueload => intro s k b h; exact h.cueload k b
  case cuelen =>
    intro s l w h
    refine h.kept ?_ (by simp) (by simp) (by simp)
    simp only [State.answerCuelen, answer]
    (repeat' split) <;> exact ⟨fun _ => id, fun _ => id, rfl⟩
  case loadscale => intro s k m r h; exact h.loadscale k m r
  case loadshape => intro s k m h; exact h.loadshape k m
  case loadplan =>
    intro s k b a h
    refine h.kept ?_ (by simp) (by simp) (by simp)
    simp only [State.answerLoadplan, answer]
    split <;> exact ⟨fun _ => id, fun _ => id, rfl⟩
  case line =>
    intro s b e h
    simp only [State.answerLine, answer, State.lineThresholds]
    (repeat' split) <;> first
      | exact h
      | exact State.NamesFilled.handCondition (.lineChanged (by exact h) _) _
      | exact State.NamesFilled.lineChanged (by exact h) _
  case restart => intro s h; exact h.restart
  all_goals intros; exact State.NamesFilled.same ‹_› (by simp) (by simp) (by simp) (by simp)

/-- Settles O57: whatever is named has been checked, or was named before, and no load empties a slot. -/
theorem namedSlotsStayFilled : Obligations.NamedSlotsStayFilled := by
  intro s t e h
  rw [State.slotsFilled_iff_namesFilled] at h ⊢
  exact namesFilled_kept.step s t h e

end Sys2Proof.Machine

/-! ## The record of a plan (R46, R47) -/

namespace Sys2Proof.Machine

/-- A code of five values is one of 0 to 4, or stands for none. -/
theorem Byte.five_codes (b : Byte) : b = 0#8 ∨ b = 1#8 ∨ b = 2#8 ∨ b = 3#8 ∨ b = 4#8 ∨
    (b ≠ 0#8 ∧ b ≠ 1#8 ∧ b ≠ 2#8 ∧ b ≠ 3#8 ∧ b ≠ 4#8 ∧ ¬b.toNat ≤ 4) := by bv_omega

/-- R47, check 3: the amount's range in the mode that the record names. -/
def PlanAmountInRange (b : PlanBytes) : Prop :=
  (b.mode = 1#8 → -7 ≤ b.amount.toInt ∧ b.amount.toInt ≤ 7 ∧ b.amount.toInt ≠ 0) ∧
    (b.mode = 2#8 → -4 ≤ b.amount.toInt ∧ b.amount.toInt ≤ 4) ∧ (b.mode = 3#8 → -24 ≤ b.amount.toInt ∧ b.amount.toInt ≤ 24) ∧
    (b.mode = 4#8 → b.amount.toNat ≤ 95)

/-- R47, checks 4 and 5. -/
def PlanLimitsInRange (b : PlanBytes) : Prop :=
  b.low.toNat ≤ b.high.toNat ∧ b.high.toNat ≤ 95 ∧ b.glide.toNat ≤ 63 ∧ b.level.toNat ≤ 127

/-- R47, check 6: the fallback's range, for CHORDAL and while the record marks one. -/
def PlanFallbackInRange (b : PlanBytes) : Prop :=
  b.mode = 2#8 → readMark .loadplan b.fallbackMark = true → -7 ≤ b.fallback.toInt ∧ b.fallback.toInt ≤ 7 ∧ b.fallback ≠ 0#8

/-- R47: the checks of the record itself. -/
structure PlanRecordInRange (b : PlanBytes) : Prop where
  mode : b.mode.toNat ≤ 4
  amount : PlanAmountInRange b
  limits : PlanLimitsInRange b
  fallback : PlanFallbackInRange b

/-- R46, R47: the plan that a record in range stands for. -/
def planOf (b : PlanBytes) : Plan where
  mode := if b.mode = 0#8 then .off else if b.mode = 1#8 then .scalar else if b.mode = 2#8 then .chordal
    else if b.mode = 3#8 then .fixed else .drone
  amount := if b.mode = 0#8 then 0 else if b.mode = 4#8 then b.amount.toNat else b.amount.toInt
  low := b.low.toNat
  high := b.high.toNat
  follow := readFollow b.follow
  glide := b.glide.toNat
  level := b.level.toNat
  fallback := if b.mode = 2#8 ∧ readMark .loadplan b.fallbackMark = true then some b.fallback.toInt else none

theorem readAmount_reads {b : PlanBytes} (mode : b.mode.toNat ≤ 4) :
    Reads (readAmount (planOf b).mode b.amount) (PlanAmountInRange b) (planOf b).amount := by
  obtain e | e | e | e | e | ⟨-, -, -, -, -, above⟩ := Byte.five_codes b.mode
  case inr.inr.inr.inr.inr => exact absurd mode above
  all_goals constructor <;> simp +contextual [planOf, PlanAmountInRange, readAmount, e]

theorem Byte.toInt_eq_zero (b : Byte) : b.toInt = 0 ↔ b = 0#8 := BitVec.toInt_inj (y := 0#8)

theorem readFallback_reads {b : PlanBytes} (mode : b.mode.toNat ≤ 4) :
    Reads (readFallback (planOf b).mode (readMark .loadplan b.fallbackMark) b.fallback) (PlanFallbackInRange b) (planOf b).fallback := by
  obtain e | e | e | e | e | ⟨-, -, -, -, -, above⟩ := Byte.five_codes b.mode
  case inr.inr.inr.inr.inr => exact absurd mode above
  all_goals cases marked : readMark .loadplan b.fallbackMark
  all_goals constructor <;> simp [planOf, PlanFallbackInRange, readFallback, Byte.toInt_eq_zero, e, marked]

theorem readMode_reads (b : PlanBytes) : Reads (readMode b.mode) (b.mode.toNat ≤ 4) (planOf b).mode := by
  obtain e | e | e | e | e | ⟨zero, one, two, three, four, above⟩ := Byte.five_codes b.mode
  case inr.inr.inr.inr.inr => exact ⟨fun le => absurd le above, fun _ => by simp [readMode, zero, one, two, three, four]⟩
  all_goals constructor <;> simp [planOf, readMode, e]

theorem readPlan_reads (b : PlanBytes) : Reads (readPlan b) (PlanRecordInRange b) (planOf b) := by
  have amount := readAmount_reads (b := b)
  have fallback := readFallback_reads (b := b)
  refine ⟨fun ok => ?_, fun bad => ?_⟩
  · have limits := ok.limits
    rw [PlanLimitsInRange] at limits
    simp only [readPlan, (readMode_reads b).inside ok.mode, (amount ok.mode).inside ok.amount, (fallback ok.mode).inside ok.fallback,
      if_pos limits]
    rfl
  · by_cases mode : b.mode.toNat ≤ 4
    · simp only [readPlan, (readMode_reads b).inside mode]
      split
      next read reads =>
        exact if_neg fun limits => bad ⟨mode, (amount mode).inRange read, limits, (fallback mode).inRange reads⟩
      · rfl
    · simp only [readPlan, (readMode_reads b).outside mode]

/-- R46, R47: the plan of a record in range lies in the ranges of Table 3.4. -/
theorem PlanRecordInRange.planOf {b : PlanBytes} (h : PlanRecordInRange b) : (planOf b).InRange := by
  obtain ⟨mode, amount, ⟨low, high, glide, level⟩, fallback⟩ := h
  refine ⟨?_, low, high, glide, level, ?_⟩
  · obtain e | e | e | e | e | ⟨-, -, -, -, -, above⟩ := Byte.five_codes b.mode
    case inl => simp [Machine.planOf, amountInRange, e]
    case inr.inr.inr.inr.inr => exact absurd mode above
    all_goals simpa [Machine.planOf, amountInRange, PlanAmountInRange, e] using amount
  · intro k mem
    obtain ⟨⟨chordal, marked⟩, ⟨⟩⟩ := Option.ite_none_right_eq_some.mp mem
    obtain ⟨low, high, present⟩ := fallback chordal marked
    exact ⟨by simp [Machine.planOf, chordal], low, high, mt (Byte.toInt_eq_zero _).mp present⟩

end Sys2Proof.Machine

/-! ## Plans, notes and targets stay in range (R46, R109, R125 to R127, R130) -/

namespace Sys2Proof.Machine

/-! ### The range fold (R125) -/

/-- R125 steps 1 and 2 end at or below the high note. -/
theorem octaveFold_le (lo hi t : Int) : octaveFold lo hi t ≤ hi := by
  simp only [octaveFold, octavesOver]
  split <;> split <;> omega

/-- R125: a folded note lies within the plan's range. -/
theorem rangeFold_range {lo hi : Int} (ordered : lo ≤ hi) (t : Int) : lo ≤ (rangeFold lo hi t).1 ∧ (rangeFold lo hi t).1 ≤ hi := by
  have top := octaveFold_le lo hi t
  simp only [rangeFold]
  split
  · split
    · exact ⟨le_refl _, ordered⟩
    · exact ⟨ordered, le_refl _⟩
  next above => exact ⟨Int.not_lt.mp above, top⟩

/-! ### One voice (R113, R116, R125 to R127, R130) -/

/-- R46, R130: plans in the ranges of Table 3.4, and a has-target mark that stands for the goal. -/
structure Voice.Planned (v : Voice) : Prop where
  plan : v.res.plan.InRange
  staged : ∀ x ∈ v.res.staged, x.plan.InRange
  marked : v.ren.hasTarget = v.res.goal.isSome

/-- R109, R125 to R127: a planned voice, with its target in its plan's range and its goal beside it. -/
structure Voice.InRange (v : Voice) : Prop extends v.Planned where
  target : ∀ t ∈ v.res.target, v.res.plan.low ≤ t ∧ t ≤ v.res.plan.high
  goal : ∀ g ∈ v.res.goal, -3040 ≤ g ∧ g ≤ 3040
  present : v.res.goal.isSome = v.res.target.isSome

theorem Voice.inRange_iff (v : Voice) :
    v.InRange ↔ (v.res.plan.InRange ∧ ∀ x ∈ v.res.staged, x.plan.InRange) ∧ v.TargetInRange :=
  ⟨fun ⟨⟨plan, staged, marked⟩, target, goal, present⟩ => ⟨⟨plan, staged⟩, target, goal, present, marked.trans present⟩,
    fun ⟨⟨plan, staged⟩, target, goal, present, marked⟩ => ⟨⟨plan, staged, marked.trans present.symm⟩, target, goal, present⟩⟩

section
variable {v : Voice}

/-- A voice whose renderer record has been moved under the same mark. -/
theorem Voice.InRange.rendered (h : v.InRange) {w : Voice} (res : w.res = v.res) (mark : w.ren.hasTarget = v.ren.hasTarget) : w.InRange := by
  obtain ⟨⟨plan, staged, marked⟩, target, goal, present⟩ := h
  rw [← res] at plan staged marked target goal present
  exact ⟨⟨plan, staged, mark.trans marked⟩, target, goal, present⟩

/-- R126, R127: the goal of a target in range against a note index. -/
theorem Voice.Planned.setGoal (h : v.Planned) {t n : Nat} (target : v.res.target = some t)
    (inside : v.res.plan.low ≤ t ∧ t ≤ v.res.plan.high) (note : n ≤ 95) (dev : Int) : (v.setGoal dev t n).InRange := by
  obtain ⟨-, -, high, -⟩ := id h.plan
  rw [Voice.setGoal_eq]
  refine ⟨⟨h.plan, h.staged, Voice.handed_hasTarget h.marked _ _ _⟩, ?_, ?_, ?_⟩
  · simpa [target] using inside
  · rintro _ ⟨⟩
    omega
  · simp [target]

/-- R113, R116: without a target there is no goal and no mark. -/
theorem Voice.Planned.untargeted (h : v.Planned) (b : Option Basis) :
    Voice.InRange { res := { v.res with target := none, goal := none, basis := b }, ren := v.ren.loseTarget } :=
  ⟨⟨h.plan, h.staged, rfl⟩, by simp, by simp, rfl⟩

theorem Voice.Planned.resolveAt (h : v.Planned) {n : Nat} (note : n ≤ 95) (e : Surroundings) : (v.resolveAt e n).InRange := by
  simp only [Voice.resolveAt]
  split
  next w _ _ =>
    have folded := rangeFold_range (Int.ofNat_le.mpr h.plan.2.1) w
    refine Voice.Planned.setGoal ?_ rfl ?_ note _
    · exact ⟨h.plan, h.staged, h.marked⟩
    · dsimp only
      omega
  next => exact h.untargeted _

theorem Voice.Planned.adopt (h : v.Planned) {p : Staged} (inRange : p.plan.InRange) {e : Surroundings} (note : ∀ n ∈ e.note, n ≤ 95)
    (i : Fin 4) : (v.adopt e i p).InRange := by
  have taken : (v.takeStaged p).Planned := ⟨inRange, by simp [Voice.takeStaged], h.marked⟩
  simp only [Voice.adopt]
  split
  next n _ reported => exact taken.resolveAt (note n reported) e
  next => exact taken.untargeted _

/-- R112: a plan in range, staged. -/
theorem Voice.InRange.stage (h : v.InRange) {p : Staged} (inRange : p.plan.InRange) {e : Surroundings} (note : ∀ n ∈ e.note, n ≤ 95)
    (i : Fin 4) (x : Handing) : (v.stage e i p x).InRange := by
  have staged : Voice.InRange { v with res := { v.res with staged := some p } } :=
    { h with staged := by rintro _ ⟨⟩; exact inRange }
  simp only [Voice.stage]
  (repeat' split) <;> first
    | exact staged
    | exact staged.adopt inRange note i

/-- R114, R117, R126: the start of a note index. -/
theorem Voice.InRange.atNoteStart (h : v.InRange) {n : Nat} (note : n ≤ 95) (e : Surroundings) (c : Changes) (i : Fin 4) :
    (v.atNoteStart e c i n).InRange := by
  simp only [Voice.atNoteStart]
  split
  next p staged => exact h.adopt (h.staged p staged) (by rintro _ ⟨⟩; exact note) i
  split
  · exact h.resolveAt note e
  split
  next t target => exact h.setGoal target (h.target t target) note _
  · exact h

/-- R117, R129: a publication, which starts no note but a note index. -/
theorem Voice.InRange.afterPublication (h : v.InRange) {p : Publication} (starts : ∀ n, p.kind.Starts n → n ≤ 95) {e : Surroundings}
    (note : ∀ n ∈ e.note, n ≤ 95) (i : Fin 4) : (v.afterPublication p e i).InRange := by
  refine Voice.InRange.rendered (v := v.atPublication p e i) ?_ rfl rfl
  simp only [Voice.atPublication, Voice.atContext]
  (repeat' split) <;> first
    | exact h
    | exact h.atNoteStart (starts _ (by simp [PublicationKind.Starts, *])) _ _ _
    | exact h.resolveAt (note _ ‹_›) _

end

/-! ### The decider's notes (R29 to R34) -/

theorem candidateOf_le (c : Nat) : candidateOf c ≤ 95 := Nat.min_le_left _ _

/-- R35: what the decider reports is a note that it holds. -/
theorem DeciderState.NotesInRange.reports {d : DeciderState} (h : d.NotesInRange) : ∀ n ∈ d.note, n ≤ 95 := by
  rintro n reported
  cases d <;> cases reported
  case held => exact h
  case transition => exact h.1
  case releasing => exact h

/-- Every note that the decider holds or that its event starts is a note index. -/
def DecisionInRange (r : Decider × Option NoteEvent) : Prop := r.1.state.NotesInRange ∧ ∀ e ∈ r.2, e.NoteInRange

theorem DecisionInRange.uneventful {d : Decider} (h : d.state.NotesInRange) : DecisionInRange (d, none) := ⟨h, fun _ mem => nomatch mem⟩

theorem DecisionInRange.event {d : Decider} {e : NoteEvent} (h : d.state.NotesInRange) (note : e.NoteInRange) : DecisionInRange (d, some e) :=
  ⟨h, by rintro _ ⟨⟩; exact note⟩

section
variable {n m : Nat}

theorem settleOnset_notes (new : m ≤ 95) (s c count : Nat) : DecisionInRange (settleOnset s c m count) := by
  simp only [settleOnset]
  split
  · exact .event new new
  · exact .uneventful new

theorem settleTransition_notes (old : n ≤ 95) (new : m ≤ 95) (s c count : Nat) (dev : Int) :
    DecisionInRange (settleTransition s c n m count dev) := by
  simp only [settleTransition]
  split
  · exact .event new new
  · exact .uneventful ⟨old, new⟩

theorem releaseCount_notes (old : n ≤ 95) (rl count : Nat) (dev : Int) : DecisionInRange (releaseCount rl n count dev) := by
  simp only [releaseCount]
  split
  · exact .event trivial trivial
  · exact .uneventful old

end

section
variable {d : Decider} (h : d.state.NotesInRange) (t : TrackerSettings)
include h

theorem deciderVoiced_notes (c : Nat) : DecisionInRange (deciderVoiced t d c) := by
  have new := candidateOf_le c
  simp only [deciderVoiced]
  cases state : d.state <;> rw [state] at h <;> dsimp only
  case silent => exact settleOnset_notes new _ _ _
  case onset => split <;> exact settleOnset_notes new _ _ _
  case transition =>
    split
    · exact .uneventful h.1
    · split <;> exact settleTransition_notes h.1 new _ _ _ _
  all_goals
    split
    · exact .uneventful h
    · exact settleTransition_notes h new _ _ _ _

theorem deciderUnvoiced_notes : DecisionInRange (deciderUnvoiced t d) := by
  simp only [deciderUnvoiced]
  cases state : d.state <;> rw [state] at h
  case silent => exact .uneventful trivial
  case onset => exact .uneventful trivial
  case transition => exact releaseCount_notes h.1 _ _ _
  all_goals exact releaseCount_notes h _ _ _

theorem deciderReport_notes (r : Report) : DecisionInRange (deciderReport t d r) := by
  simp only [deciderReport]
  split
  · exact deciderVoiced_notes h t _
  · exact deciderUnvoiced_notes h t

end

/-- R71: a note start that waits starts the note of the decider's event. -/
theorem Due.start_notes {d : Due} (h : ∀ e ∈ d.note, e.NoteInRange) {k : PublicationKind} (started : d.start = some k) :
    ∀ n, k.Starts n → n ≤ 95 := by
  simp only [Due.start] at started
  split at started
  case h_1 m note =>
    cases started
    rintro n (same | ⟨_, same⟩) <;> cases same
    exact h _ note
  case h_2 old m note =>
    cases started
    rintro n (same | ⟨_, same⟩) <;> cases same
    exact h _ note
  all_goals cases started

/-! ### The state -/

/-- R46, R109: `State.TargetsInRange`, by the parts of a state that it reads. -/
structure Ranges (plans : List Plan) (decider : DeciderState) (event : Option NoteEvent) (voices : Quad Voice) : Prop where
  plans : ∀ p ∈ plans, p.InRange
  decider : decider.NotesInRange
  event : ∀ e ∈ event, e.NoteInRange
  voices : ∀ i, (voices.get i).InRange

/-- Every plan, note, target and goal of a state is in range. -/
def State.Ranged (s : State) : Prop := Ranges s.tables.plans s.decider.state s.due.note s.voices

theorem State.targetsInRange_iff_ranged (s : State) : s.TargetsInRange ↔ s.Ranged := by
  refine ⟨fun ⟨⟨plans, inRange⟩, ⟨decider, event⟩, targets⟩ => ⟨plans, decider, event, fun i => ?_⟩,
    fun h => ⟨⟨h.plans, ?_⟩, ⟨h.decider, h.event⟩, ?_⟩⟩
  · exact (Voice.inRange_iff _).mpr ⟨Quad.All.get inRange i, Quad.All.get targets i⟩
  · exact Quad.all_iff_get.mpr fun i => ((Voice.inRange_iff _).mp (h.voices i)).1
  · exact Quad.all_iff_get.mpr fun i => ((Voice.inRange_iff _).mp (h.voices i)).2

section
variable {s t : State} (h : s.Ranged)
include h

/-- The library's plan under a number, which is the OFF plan beyond the library. -/
theorem State.Ranged.plan (k : Nat) : (s.tables.plans.getD k planOff).InRange := by
  rw [List.getD_eq_getElem?_getD]
  cases e : s.tables.plans[k]? with
  | none => exact planOff_inRange
  | some p => exact h.plans p (List.mem_of_getElem? e)

theorem State.Ranged.moved (plans : t.tables.plans = s.tables.plans) (decider : t.decider.state = s.decider.state)
    (event : t.due.note = s.due.note) (voices : ∀ i, (s.voices.get i).InRange → (t.voices.get i).InRange) : t.Ranged := by
  refine ⟨?_, ?_, ?_, fun i => voices i (h.voices i)⟩
  · rw [plans]; exact h.plans
  · rw [decider]; exact h.decider
  · rw [event]; exact h.event

theorem State.Ranged.same (plans : t.tables.plans = s.tables.plans) (decider : t.decider.state = s.decider.state)
    (event : t.due.note = s.due.note) (voices : t.voices = s.voices) : t.Ranged :=
  h.moved plans decider event fun i => by rw [voices]; exact id

/-- R131, R135 to R139: moves of the renderer under the same marks. -/
theorem State.Ranged.rendered (plans : t.tables.plans = s.tables.plans) (decider : t.decider.state = s.decider.state)
    (event : t.due.note = s.due.note) (res : ∀ i, (t.voices.get i).res = (s.voices.get i).res)
    (marks : ∀ i, (t.voices.get i).ren.hasTarget = (s.voices.get i).ren.hasTarget) : t.Ranged :=
  h.moved plans decider event fun i inRange => inRange.rendered (res i) (marks i)

theorem State.Ranged.retest : s.retest.Ranged :=
  h.rendered rfl rfl rfl (fun i => by rw [State.retest_get]) fun i => by rw [State.retest_get]; exact RenderRecord.retest_hasTarget _ _

theorem State.Ranged.noteTaken : s.noteTaken.Ranged := { h with event := fun _ mem => nomatch mem }

/-- R117: a publication that starts no note but a note index. -/
theorem State.Ranged.delivered {p : Publication} (starts : ∀ n, p.kind.Starts n → n ≤ 95) : (s.deliver p).Ranged := by
  refine State.Ranged.retest (h.moved rfl rfl rfl fun i inRange => ?_)
  rw [Quad.mapIdx_get]
  exact inRange.afterPublication starts h.decider.reports i

theorem State.Ranged.published (before : Context) (table : Bool) : (s.publishChanges before table).Ranged := by
  obtain ⟨_, e⟩ | ⟨_, e⟩ := s.publishChanges_cases before table <;> rw [e]
  · exact h
  · exact h.delivered fun n starts => by simp [PublicationKind.Starts] at starts

/-! Cue steps and note operations (R71, R72, R149, R153) -/

theorem State.Ranged.stageStep (c : CueStep) (x : Handing) : (s.stageStep c x).Ranged := by
  refine h.moved (by simp) (by simp) (by simp) fun i inRange => ?_
  rw [State.stageStep_voice, Voice.stageAll]
  generalize s.voices.get i = v at inRange
  induction c.bindings generalizing v with
  | nil => exact inRange
  | cons b l ih =>
    refine ih _ ?_
    dsimp only
    split
    · exact inRange.stage (h.plan _) h.decider.reports _ _
    · exact inRange

theorem State.Ranged.stepWritten (c : CueStep) : ((s.writeStepFields c).writeStepSwitches c).Ranged :=
  h.same (by simp) (by simp) (by simp) (by simp)

theorem State.Ranged.enterStep (k : Fin 64) : (s.enterStep k).Ranged :=
  ((((h.stepWritten (s.tables.cueStep k)).published s.ctx false).stageStep (s.tables.cueStep k) .next).retest).same rfl rfl rfl rfl

theorem State.Ranged.enterStepHeld (k : Fin 64) : (s.enterStepHeld k).Ranged :=
  ((h.stepWritten (s.tables.cueStep k)).stageStep (s.tables.cueStep k) .held).same rfl rfl rfl rfl

theorem State.Ranged.advance : s.advance.Ranged := by
  simp only [State.advance]
  split
  · exact h
  split
  · exact h.enterStep _
  · exact h

theorem State.Ranged.cueOnset : s.cueOnset.Ranged := by
  simp only [State.cueOnset, State.advanceHeld]
  (repeat' split) <;> first
    | exact h
    | exact h.enterStepHeld _

theorem State.Ranged.takeHead (x : Trigger) : (s.takeHead x).Ranged := h.same (by simp) (by simp) (by simp) (by simp)

/-- R71: the start of a note index. -/
theorem State.Ranged.noteStart {k : PublicationKind} (starts : ∀ n, k.Starts n → n ≤ 95) : (s.noteStart k).Ranged := by
  rw [State.noteStart_eq]
  exact (h.takeHead .onset).cueOnset.noteTaken.delivered starts

theorem State.Ranged.noteOff (n : Nat) : (s.noteOff n).Ranged :=
  State.Ranged.delivered (s := (s.takeHead .phrase).noteTaken) (h.takeHead .phrase).noteTaken
    fun n starts => by simp [PublicationKind.Starts] at starts

/-! The chord line (R77, R82 to R93) -/

theorem State.Ranged.handCondition (c : LineCondition) : (s.handCondition c).Ranged := by
  have acted (t : State) (e : t.Ranged) : (t.lossActions c).Ranged := e.same (by simp) (by simp) (by simp) (by simp)
  simp only [State.handCondition]
  split
  · exact h
  · exact State.Ranged.published (by exact acted s h) _ _

theorem State.Ranged.chordAt (v : Option Chord) (a : ApplyAt) : (s.chordAt v a).Ranged := by
  cases a with
  | now => exact State.Ranged.published (h.same (by simp) (by simp) (by simp) (by simp)) _ _
  | onset => exact h.same (by simp [State.chordAt]) (by simp [State.chordAt]) (by simp [State.chordAt]) (by simp [State.chordAt])
  | phrase => exact h.same (by simp [State.chordAt]) (by simp [State.chordAt]) (by simp [State.chordAt]) (by simp [State.chordAt])

theorem State.Ranged.frameContent (f : FrameContent) : (s.frameContent f).Ranged := by
  cases f with
  | chord v a => exact h.chordAt v a
  | notes a l => exact h
  | key k x => exact State.Ranged.published (h.same (by simp) (by simp) (by simp) (by simp)) _ _
  | alive => exact h

theorem State.Ranged.validFrame (f : FrameContent) : (s.validFrame f).Ranged := by
  have derived : (State.deriveCondition
      { s with line := { s.line with assembler := .hunt, silence := 0, frameSeen := true, broken := false } }).Ranged :=
    State.Ranged.handCondition (by exact h) _
  simp only [State.validFrame]
  split
  · exact derived.frameContent f
  · exact derived

theorem State.Ranged.completeFrame (k : FrameKind) (d : List Byte) : (s.completeFrame k d).Ranged := by
  simp only [State.completeFrame]
  split
  · exact h.validFrame _
  · exact h

theorem State.Ranged.huntChar (c : LineChar) : (s.huntChar c).Ranged := by
  simp only [State.huntChar, State.takeHeader]
  (repeat' split) <;> first
    | exact h
    | exact h.completeFrame _ _

theorem State.Ranged.frameChar (k : FrameKind) (n : Nat) (d : List Byte) (c : LineChar) : (s.frameChar k n d c).Ranged := by
  simp only [State.frameChar]
  (repeat' split) <;> first
    | exact h
    | exact h.huntChar c
    | exact h.completeFrame _ _
    | exact State.Ranged.huntChar (s := s.raise .frameDrop) h c

theorem State.Ranged.takeChar : s.takeChar.Ranged := by
  simp only [State.takeChar]
  (repeat' split) <;> first
    | exact h
    | exact State.Ranged.huntChar (by exact h) _
    | exact State.Ranged.frameChar (by exact h) _ _ _ _

omit h in
theorem State.Ranged.drain (n : Nat) {s : State} (h : s.Ranged) : (State.drain n s).Ranged := by
  induction n generalizing s with
  | zero => exact h
  | succ n ih => exact ih h.takeChar

theorem State.Ranged.receive (c : LineChar) : (s.receive c).Ranged := by
  simp only [State.receive]
  split
  · exact .drain 2 h
  · exact h

theorem State.Ranged.character (s1 s2 s3 : BitVec 12) : (s.character s1 s2 s3).Ranged := by
  have noisy (c : Bool) : (s.raiseIf c .noise).Ranged := h.same (by simp) (by simp) (by simp) (by simp)
  simp only [State.character]
  (repeat' split) <;> first
    | exact h
    | exact noisy _
    | exact State.Ranged.receive (by exact noisy _) _

theorem State.Ranged.matchEnd : s.matchEnd.Ranged := by
  simp only [State.matchEnd]
  split
  · exact h
  next m _ =>
    have outcome : (State.matchOutcome { s with matcher := none } m).Ranged := by
      simp only [State.matchOutcome]
      (repeat' split) <;> first
        | exact h
        | exact State.Ranged.chordAt (by exact h) _ _
    exact .drain 2 outcome

theorem State.Ranged.lineChanged (o : LineSettings) : (s.lineChanged o).Ranged := by
  simp only [State.lineChanged]
  (repeat' split) <;> first
    | exact State.Ranged.handCondition (s := State.flushQueue _) h _
    | exact State.Ranged.handCondition (by exact h) _
    | exact h

theorem State.Ranged.switchWrite (w m : BitVec 8) : (s.switchWrite w m).1.Ranged :=
  State.Ranged.published (h.same (by simp) (by simp) (by simp) (by simp)) _ _

/-! Fault causes, measurements and hops (R12, R36, R140, R173, R176) -/

theorem State.Ranged.cutVoices : s.cutVoices.Ranged :=
  h.rendered rfl rfl rfl (fun i => by simp [State.cutVoices]) fun i => by simp [State.cutVoices, RenderRecord.cut]

theorem State.Ranged.enterBypass : s.enterBypass.Ranged :=
  State.Ranged.cutVoices (s := { s with fault := { s.fault with output := .bypass } }) h

theorem State.Ranged.causeAppears (k : Cause) : (s.causeAppears k).Ranged := by
  obtain ⟨_, e⟩ | ⟨_, e⟩ | ⟨_, e⟩ := s.causeAppears_cases k <;> rw [e]
  · exact h
  · exact h
  · exact h.enterBypass

theorem State.Ranged.howlAppears : s.howlAppears.Ranged := by
  simp only [State.howlAppears]
  split
  · exact h
  · exact State.Ranged.causeAppears (by exact h) _

/-- R36: on a loss of the rate the decider falls silent. -/
theorem State.Ranged.rateLoss : s.rateLoss.Ranged := by
  have heard : s.lossHeard.Ranged := by
    have silent : (State.forceSilent { s with rate := s.rate.lose }).Ranged :=
      { plans := by simpa [State.forceSilent] using h.plans
        decider := by simp [State.forceSilent, DeciderState.NotesInRange]
        event := by simpa [State.forceSilent] using h.event
        voices := by simpa [State.forceSilent] using h.voices }
    exact silent.same (by simp [State.lossHeard]) (by simp [State.lossHeard]) (by simp [State.lossHeard]) (by simp [State.lossHeard])
  rw [State.rateLoss_eq]
  exact (heard.causeAppears .rate).retest

theorem State.Ranged.measure (m : Nat) : (s.measure m).1.Ranged := by
  simp only [State.measure, State.measureAcquiring, State.measureLocked]
  (repeat' split) <;> first
    | exact h
    | exact h.rateLoss
    | exact h.same (by simp) (by simp) (by simp) (by simp)

theorem State.Ranged.rateAbsence : s.rateAbsence.Ranged := by
  simp only [State.rateAbsence]
  split <;> first
    | exact h
    | exact h.rateLoss

omit h in
/-- R131, R139: the rendering of a hop moves no mark. -/
theorem State.worked_hasTarget (s : State) (a : Analysis) (o : RenderOrder) (v : Voice) : (s.worked a o v).hasTarget = v.ren.hasTarget := by
  have stepped := (v.ren.fadeStep_carries).hasTarget
  cases o
  case last => exact stepped
  all_goals exact (RenderRecord.hopWork_carries _ _ _).hasTarget.trans stepped

theorem State.Ranged.hop (a : Analysis) (o : RenderOrder) : (s.hop a o).Ranged := by
  have decided : DecisionInRange (s.decided a) := deciderReport_notes h.decider _ _
  refine ⟨by simpa using h.plans, ?_, ?_, fun i => ?_⟩
  · rw [State.hop_decider]; exact decided.1
  · rw [State.hop_due, State.report_due, State.beforeReport_decided]; exact decided.2
  · rw [State.hop_voice]
    exact (h.voices i).rendered rfl (by rw [RenderRecord.retest_hasTarget, State.worked_hasTarget])

omit h in
theorem State.nextFrame_res (s : State) (w : SlotWord) (b : Nat) (i : Fin 4) : ((s.nextFrame w b).voices.get i).res = (s.voices.get i).res := by
  simp [State.nextFrame, State.takeBoundaries, State.moveSamples, State.beginFrame]

omit h in
theorem State.nextFrame_note (s : State) (w : SlotWord) (b : Nat) : (s.nextFrame w b).due.note = s.due.note := by
  simp only [State.nextFrame, State.countFade]
  (repeat' split) <;> rfl

/-! Records (R47, R48, R170) -/

theorem State.Ranged.loadplan (slot : Byte) (b : PlanBytes) (adoption : Byte) : (s.answerLoadplan slot b adoption).1.Ranged := by
  simp only [State.answerLoadplan, answer]
  split
  next k p now _ read _ =>
    have checked := (readPlan_reads b).inRange read
    obtain rfl : planOf b = p := Option.some.inj (((readPlan_reads b).inside checked).symm.trans read)
    have stored : State.Ranged { s with tables := { s.tables with plans := s.tables.plans.set k.val (planOf b) } } :=
      { h with plans := fun q mem => (List.mem_or_eq_of_mem_set mem).elim (h.plans q) (fun new => new ▸ checked.planOf) }
    refine State.Ranged.retest (stored.moved rfl rfl rfl fun i inRange => ?_)
    rw [State.stageLoad, Quad.mapIdx_get]
    split
    · exact inRange.stage checked.planOf h.decider.reports _ _
    · exact inRange
  · exact h

theorem State.Ranged.handOff : s.handOff.Ranged := State.Ranged.published (s := { s with ctx := { s.ctx with lineCond := s.line.cond } }) h _ _

theorem State.Ranged.restart : s.answerRestart.1.Ranged := by
  have reset : s.resetRuntime.Ranged :=
    { plans := h.plans
      decider := trivial
      event := by simp [State.resetRuntime, Due.nothing]
      voices := Quad.all_iff_get.mp (voicesAtReset_all (Q := Voice.InRange) fun slot =>
        ⟨⟨Voice.atReset_plan_inRange slot h.plans, by simp [Voice.atReset], rfl⟩, by simp [Voice.atReset], by simp [Voice.atReset], rfl⟩) }
  have published : (s.resetRuntime.publish .context (s.ctx.changes .atReset false)).Ranged :=
    reset.delivered fun n starts => by simp [PublicationKind.Starts] at starts
  exact published.handOff

end

/-! ### Every step -/

theorem ranged_kept : Kept State.Ranged := by
  constructor
  case powerOn => intro s sa _; exact (State.targetsInRange_iff_ranged _).mp (State.powerOn_targetsInRange sa)
  case takeHowl =>
    intro s h; simp only [State.takeHowl]; split
    · exact State.Ranged.retest (.howlAppears (by exact h))
    · exact h
  case takeRecovery =>
    intro s h
    simp only [State.takeRecovery]
    (repeat' split) <;> first
      | exact h
      | exact State.Ranged.retest (by exact h)
  case takeNoteStart =>
    intro s h
    simp only [State.takeNoteStart]
    split
    next k started => exact h.noteStart (Due.start_notes h.event started)
    · exact h
  case takeNoteOff =>
    intro s h; simp only [State.takeNoteOff]; split <;> first
      | exact h.noteOff _
      | exact h
  case takeEvaluation => intro s h; exact h.same (by simp) (by simp) s.takeEvaluation_note (by simp)
  case takeProposal =>
    intro s h
    obtain ⟨_, e⟩ | ⟨k, _, e⟩ := s.takeProposal_cases <;> rw [e]
    · exact h
    · exact State.Ranged.published (State.Ranged.same h (by simp) (by simp) (by simp) (by simp)) _ _
  case takeDwell =>
    intro s h; simp only [State.takeDwell]; split
    · exact State.Ranged.advance (by exact h)
    · exact h
  case takeSilence =>
    intro s h; simp only [State.takeSilence]; split
    · exact State.Ranged.handCondition (by exact h) _
    · exact h
  case takeFadeStep =>
    intro s h; simp only [State.takeFadeStep]; split
    · exact h.rendered rfl rfl rfl (fun i => by rw [State.fadeStep_get]) fun i => by
        rw [State.fadeStep_get]; exact (RenderRecord.fadeStep_carries _).hasTarget
    · exact h
  case takeRender =>
    intro s h; simp only [State.takeRender]; split
    · exact h.rendered rfl rfl rfl (fun i => by rw [State.hopWork_get]) fun i => by
        rw [State.hopWork_get]; exact (RenderRecord.hopWork_carries _ _ _).hasTarget
    · exact h
  case takeBoundary =>
    intro s j h
    refine h.moved rfl rfl rfl fun i inRange => ?_
    simp only [State.takeBoundary, Quad.update_get]
    split
    · exact inRange.rendered rfl (RenderRecord.takeBoundary_carries _).hasTarget
    · exact inRange
  case nextFrame =>
    intro s w b h
    exact h.rendered (by simp) (by simp) (s.nextFrame_note w b) (s.nextFrame_res w b) fun i => (s.nextFrame_carries w b i).hasTarget
  case absence =>
    intro s h; simp only [State.absence]; split
    · exact State.Ranged.rateAbsence (by exact h)
    · exact h
  case measurement =>
    intro s m a o h
    simp only [State.measurement]
    (repeat' split) <;> first
      | exact h
      | exact (State.Ranged.measure (by exact h) m).hop a o
      | exact State.Ranged.measure (by exact h) m
  case character => intro s s1 s2 s3 h; exact h.character s1 s2 s3
  case lineBreak =>
    intro s h; simp only [State.lineBreak]; split
    · exact State.Ranged.handCondition (by exact h) _
    · exact h
  case matchEnd => intro s h; exact h.matchEnd
  case setkey =>
    intro s src k p h
    simp only [State.answerSetkey, answer]
    split
    · exact State.Ranged.published (h.same (by simp) (by simp) (by simp) (by simp)) _ _
    · exact h
  case setscale =>
    intro s src k p h
    simp only [State.answerSetscale, answer]
    (repeat' split) <;> first
      | exact h
      | exact State.Ranged.published (h.same (by simp) (by simp) (by simp) (by simp)) _ _
  case setchord =>
    intro s src p b h
    simp only [State.answerSetchord, State.answerChordWrite, answer]
    (repeat' split) <;> first
      | exact h
      | exact State.Ranged.published (h.same (by simp) (by simp) (by simp) (by simp)) _ _
  case unpin =>
    intro s src f h
    simp only [State.answerUnpin, unpinAnswer, answer]
    (repeat' split) <;> first
      | exact h
      | exact State.Ranged.published (State.Ranged.same h (by simp) (by simp) (by simp) (by simp)) _ _
  case put => intro s src arg h; exact h.switchWrite _ _
  case set => intro s src arg h; exact h.switchWrite _ _
  case clear => intro s src arg h; exact h.switchWrite _ _
  case locksw => intro s mask h; exact h
  case hush =>
    intro s src h
    simp only [State.answerHush]
    split <;> first
      | exact h
      | exact State.Ranged.cutVoices (by exact h)
  case resume =>
    intro s src h
    simp only [State.answerResume, answer]
    (repeat' split) <;> first
      | exact h
      | exact State.Ranged.retest (by exact h)
  case cuenext =>
    intro s h
    simp only [State.answerCuenext, navigated, answer]
    (repeat' split) <;> first
      | exact h
      | exact h.enterStep _
  case cueprev =>
    intro s h
    simp only [State.answerCueprev, navigated, answer]
    (repeat' split) <;> first
      | exact h
      | exact h.enterStep _
  case cuegoto =>
    intro s k h
    simp only [State.answerCuegoto, navigated, answer]
    (repeat' split) <;> first
      | exact h
      | exact h.enterStep _
  case cueload => intro s k b h; simp only [State.answerCueload, answer]; (repeat' split) <;> exact h
  case cuelen => intro s l w h; simp only [State.answerCuelen, answer]; (repeat' split) <;> exact h
  case loadscale =>
    intro s k m r h
    simp only [State.answerLoadscale, answer]
    (repeat' split) <;> first
      | exact h
      | exact State.Ranged.published (by exact h) _ _
  case loadshape =>
    intro s k m h
    simp only [State.answerLoadshape, answer]
    (repeat' split) <;> first
      | exact h
      | exact State.Ranged.published (by exact h) _ _
  case loadplan => intro s k b a h; exact h.loadplan k b a
  case bind =>
    intro s v k a h
    simp only [State.answerBind, answer]
    split
    · refine State.Ranged.retest (h.moved rfl rfl rfl fun i inRange => ?_)
      simp only [State.stageOn, Quad.update_get]
      split
      · exact inRange.stage (h.plan _) h.decider.reports _ _
      · exact inRange
    · exact h
  case clearfault =>
    intro s h
    simp only [State.answerClearfault]
    (repeat' split) <;> first
      | exact h
      | exact State.Ranged.retest (by exact h)
  case line =>
    intro s b e h
    simp only [State.answerLine, answer, State.lineThresholds]
    (repeat' split) <;> first
      | exact h
      | exact State.Ranged.handCondition (.lineChanged (by exact h) _) _
      | exact State.Ranged.lineChanged (by exact h) _
  case keytrack => intro s b c h; exact h.same (by simp) (by simp) (s.answerKeytrack_note b c) (by simp)
  case restart => intro s h; exact h.restart
  all_goals intros; exact State.Ranged.same ‹_› (by simp) (by simp) (by simp) (by simp)

/-- Settles O53: a plan is checked before it is stored, a note is formed within 0 to 95, and a target is folded into its plan's range. -/
theorem targetsStayInThePlanRange : Obligations.TargetsStayInThePlanRange := by
  intro s t e h
  rw [State.targetsInRange_iff_ranged] at h ⊢
  exact ranged_kept.step s t h e

end Sys2Proof.Machine

/-! ## LOADSCALE and LOADSHAPE (R41, R42, R44, R45, R169) -/

namespace Sys2Proof.Machine

/-! ### The fields of the two records -/

/-- R41: the rule that a code up to 2 stands for. -/
def ruleOf (b : Byte) : ScaleRule := if b = 0#8 then .parallel else if b = 1#8 then .lower else .upper

theorem readRule_reads (b : Byte) : Reads (readRule b) (b.toNat ≤ 2) (ruleOf b) := by
  obtain rfl | rfl | rfl | ⟨zero, one, two, above⟩ := Byte.three_codes b
  case inr.inr.inr => exact ⟨fun le => absurd le above, fun _ => by simp [readRule, zero, one, two]⟩
  all_goals constructor <;> simp [readRule, ruleOf]

/-- R41, R44: a member field stands for a member set while its four unused bits are clear. -/
theorem readMembers_reads (w : BitVec 16) : Reads (readMembers w) (w.toNat < 4096) (w.setWidth 12) := by
  have unused : w.extractLsb' 12 4 = 0#4 ↔ w.toNat < 4096 := by
    have := w.isLt
    simp only [BitVec.toNat_eq, BitVec.extractLsb'_toNat, Nat.shiftRight_eq_div_pow]
    simp only [BitVec.toNat_ofNat]
    omega
  refine ⟨fun clear => ?_, fun set => if_neg (mt unused.mp set)⟩
  rw [readMembers, if_pos (unused.mpr clear)]
  exact congrArg some (by ext; simp)

theorem members_getLsbD_zero (w : BitVec 16) : (w.setWidth 12).getLsbD 0 = w.getLsbD 0 := by simp

/-- R44: member 0 alone. -/
theorem members_eq_one {w : BitVec 16} (clear : w.toNat < 4096) : w.setWidth 12 = 1#12 ↔ w = 1#16 := by bv_omega

/-! ### The publication of a load (R42, R45, R70) -/

/-- R70: what a load leaves of the context is what stood before; the table contents alone may have changed. -/
theorem Context.changes_self (c : Context) (table : Bool) : c.changes c table = ⟨false, false, false, false, table, 0#8⟩ := by
  simp [Context.changes]

/-- R42, R45: a load publishes exactly when the slot is named. -/
theorem State.publishChanges_table (s : State) (table : Bool) :
    s.publishChanges s.ctx table =
      if table = true then s.deliver ⟨.context, s.ctx.published, ⟨false, false, false, false, true, 0#8⟩⟩ else s := by
  cases table with
  | false => exact s.publishChanges_self
  | true => simp [State.publishChanges_eq, Context.changes_self, Changes.any, Changes.ordinary]

/-! ### The answers -/

section
variable {s : State} {slot : Byte} {members : BitVec 16} {rule : Byte}

/-- R41: the state after a load of a scale, before its publication. -/
def State.withScale (s : State) (slot : Byte) (members : BitVec 16) (rule : Byte) : State :=
  { s with tables := { s.tables with scales := s.tables.scales.set slot.toNat ⟨members.setWidth 12, ruleOf rule⟩ } }

/-- R44: the state after a load of a shape, before its publication. -/
def State.withShape (s : State) (slot : Byte) (members : BitVec 16) : State :=
  { s with tables := { s.tables with shapes := s.tables.shapes.set slot.toNat (members.setWidth 12) } }

theorem State.answerLoadscale_outside (h : ¬(slot.toNat ≤ 7 ∧ rule.toNat ≤ 2)) : s.answerLoadscale slot members rule = (s, .range, []) := by
  by_cases inside : slot.toNat ≤ 7
  · simp [State.answerLoadscale, (readFin_reads 7 slot).inside inside, (readRule_reads rule).outside fun le => h ⟨inside, le⟩, answer]
  · simp [State.answerLoadscale, (readFin_reads 7 slot).outside inside, answer]

theorem State.answerLoadscale_inside (h : slot.toNat ≤ 7 ∧ rule.toNat ≤ 2) :
    s.answerLoadscale slot members rule =
      if members.toNat < 4096 ∧ members.getLsbD 0 = true then
        ((s.withScale slot members rule).publishChanges s.ctx (decide (s.ctx.scale.value.val = slot.toNat)), .done, [])
      else (s, .format, []) := by
  have index : (Fin.ofNat 8 slot.toNat).val = slot.toNat := Nat.mod_eq_of_lt (by omega)
  have named : s.ctx.scaleLoaded (Fin.ofNat 8 slot.toNat) = decide (s.ctx.scale.value.val = slot.toNat) := by
    simp only [Context.scaleLoaded, beq_eq_decide, Fin.ext_iff, index]
  simp only [State.answerLoadscale, (readFin_reads 7 slot).inside h.1, (readRule_reads rule).inside h.2]
  by_cases clear : members.toNat < 4096
  · simp only [(readMembers_reads members).inside clear, members_getLsbD_zero, clear, true_and, named, index]
    rfl
  · simp only [(readMembers_reads members).outside clear, clear, false_and, if_false]
    rfl

theorem State.answerLoadshape_outside (h : 15 < slot.toNat) : s.answerLoadshape slot members = (s, .range, []) := by
  simp [State.answerLoadshape, (readFin_reads 15 slot).outside (Nat.not_le.mpr h), answer]

theorem State.answerLoadshape_inside (h : slot.toNat ≤ 15) :
    s.answerLoadshape slot members =
      if members.toNat < 4096 ∧ members.getLsbD 0 = true ∧ members ≠ 1#16 then
        ((s.withShape slot members).publishChanges s.ctx (s.ctx.chord.value.any fun c => c.shape.val = slot.toNat), .done, [])
      else (s, .format, []) := by
  have index : (Fin.ofNat 16 slot.toNat).val = slot.toNat := Nat.mod_eq_of_lt (by omega)
  have named : s.ctx.shapeLoaded (Fin.ofNat 16 slot.toNat) = s.ctx.chord.value.any fun c => c.shape.val = slot.toNat := by
    simp only [Context.shapeLoaded, beq_eq_decide, Fin.ext_iff, index]
  simp only [State.answerLoadshape, (readFin_reads 15 slot).inside h]
  by_cases clear : members.toNat < 4096
  · have formed : ((members.setWidth 12).getLsbD 0 && members.setWidth 12 != 1#12) = true ↔ members.getLsbD 0 = true ∧ members ≠ 1#16 := by
      rw [Bool.and_eq_true, bne_iff_ne, members_getLsbD_zero, Ne, members_eq_one clear]
    simp only [(readMembers_reads members).inside clear, formed, clear, true_and, named, index]
    rfl
  · simp only [(readMembers_reads members).outside clear, clear, false_and, if_false]
    rfl

theorem State.Quiet.exec_loadscale {t : State} {code : ReplyCode} {data : List Byte} (h : s.Quiet)
    (answers : s.answerLoadscale slot members rule = (t, code, data)) (still : t.due = s.due) :
    exec (.loadscale .panel slot members rule) s = .next (t.reply .panel ⟨0x30#8, code, data⟩) :=
  congrArg Host.Outcome.next (h.commandMeeting_answers (src := .panel) (c := .loadscale)
    (body := fun u => u.answerLoadscale slot members rule) (by decide) answers still)

theorem State.Quiet.exec_loadshape {t : State} {code : ReplyCode} {data : List Byte} (h : s.Quiet)
    (answers : s.answerLoadshape slot members = (t, code, data)) :
    exec (.loadshape .panel slot members) s = .next (t.reply .panel ⟨0x31#8, code, data⟩) :=
  congrArg Host.Outcome.next (h.command_answers (src := .panel) (c := .loadshape)
    (body := fun u => u.answerLoadshape slot members) (by decide) answers)

end

/-- Settles O20: each record by the outcome of its checks, and the publication by whether a field names the slot. -/
theorem loadsReplaceScaleAndShapeSlots : Obligations.LoadsReplaceScaleAndShapeSlots := by
  refine ⟨fun s slot members rule quiet => ⟨fun outside => ?_, fun inside malformed => ?_, fun inside formed => ?_⟩,
    fun s slot members quiet => ⟨fun outside => ?_, fun inside malformed => ?_, fun inside formed => ?_⟩⟩
  · exact quiet.exec_loadscale (State.answerLoadscale_outside outside) rfl
  · exact quiet.exec_loadscale ((State.answerLoadscale_inside inside).trans (if_neg malformed)) rfl
  · intro u published
    refine quiet.exec_loadscale (((State.answerLoadscale_inside inside).trans (if_pos formed)).trans (Prod.ext ?_ rfl)) ?_
    · have loaded : (s.withScale slot members rule).publishChanges s.ctx _ = _ :=
        State.publishChanges_table u (decide (s.ctx.scale.value.val = slot.toNat))
      simpa only [decide_eq_true_eq] using loaded
    · split <;> rfl
  · exact quiet.exec_loadshape (State.answerLoadshape_outside outside)
  · exact quiet.exec_loadshape ((State.answerLoadshape_inside inside).trans (if_neg malformed))
  · intro u published
    have answers := (State.answerLoadshape_inside (s := s) inside).trans (if_pos formed)
    have loaded : (s.withShape slot members).publishChanges s.ctx _ = _ :=
      State.publishChanges_table u (s.ctx.chord.value.any fun c => c.shape.val = slot.toNat)
    rw [loaded] at answers
    refine ⟨fun named => ?_, fun unnamed => ?_⟩
    · rw [if_pos (by simpa [Option.any_eq_true] using named)] at answers
      exact quiet.exec_loadshape answers
    · rw [if_neg (by simpa [Option.any_eq_true] using unnamed)] at answers
      exact quiet.exec_loadshape answers

end Sys2Proof.Machine

/-! ## LOADPLAN (R47, R48, R112, R113, R137) -/

namespace Sys2Proof.Machine

section
variable {s : State} {slot : Byte} {b : PlanBytes} {adoption : Byte}

/-- R47: the seven checks of the command. -/
structure LoadplanInRange (slot : Byte) (b : PlanBytes) (adoption : Byte) : Prop where
  slot : slot.toNat ≤ 15
  record : PlanRecordInRange b
  adoption : adoption.toNat ≤ 1

theorem State.answerLoadplan_refuses (h : ¬LoadplanInRange slot b adoption) : s.answerLoadplan slot b adoption = (s, .range, []) := by
  simp only [State.answerLoadplan]
  split
  next k p now readSlot readRecord readNow =>
    refine absurd ⟨(readFin_reads 15 slot).inRange readSlot, (readPlan_reads b).inRange readRecord, ?_⟩ h
    by_contra above
    rw [readAdoption_of_lt (Nat.lt_of_not_le above)] at readNow
    cases readNow
  next => rfl

/-- R46: the state with the record in the library. -/
def State.planStored (s : State) (slot : Byte) (b : PlanBytes) : State :=
  { s with tables := { s.tables with plans := s.tables.plans.set slot.toNat (planOf b) } }

/-- R48: the state with the record in the library and staged on the voices that it concerns. -/
def State.planLoaded (s : State) (slot : Byte) (b : PlanBytes) (adoption : Byte) : State :=
  (s.planStored slot b).stageLoad (Fin.ofNat 16 slot.toNat) (planOf b) (.ofAdoption (decide (adoption = 1#8)))

/-- R48: what the load makes of a voice before its sound condition is tested. -/
def State.loadedVoice (s : State) (slot : Byte) (b : PlanBytes) (adoption : Byte) (i : Fin 4) : Voice :=
  if (s.voices.get i).res.concerns (Fin.ofNat 16 slot.toNat) then
    (s.voices.get i).stage (s.planStored slot b).surroundings i ⟨planOf b, Fin.ofNat 16 slot.toNat⟩ (.ofAdoption (decide (adoption = 1#8)))
  else s.voices.get i

theorem State.answerLoadplan_loads (h : LoadplanInRange slot b adoption) :
    s.answerLoadplan slot b adoption = ((s.planLoaded slot b adoption).retest, .done, []) := by
  have index : (Fin.ofNat 16 slot.toNat).val = slot.toNat := Nat.mod_eq_of_lt (Nat.lt_succ_of_le h.slot)
  simp only [State.answerLoadplan, (readFin_reads 15 slot).inside h.slot, (readPlan_reads b).inside h.record, readAdoption_of_le h.adoption,
    index]
  rfl

theorem State.Quiet.exec_loadplan {t : State} {code : ReplyCode} {data : List Byte} (h : s.Quiet)
    (answers : s.answerLoadplan slot b adoption = (t, code, data)) :
    exec (.loadplan .panel slot b adoption) s = .next (t.reply .panel ⟨0x32#8, code, data⟩) :=
  congrArg Host.Outcome.next (h.command_answers (src := .panel) (c := .loadplan)
    (body := fun u => u.answerLoadplan slot b adoption) (by decide) answers)

/-- R48: a load concerns the voices bound to the slot and those whose staged plan came from it. -/
theorem VoiceRecord.concerns_iff (r : VoiceRecord) (slot : Byte) (le : slot.toNat ≤ 15) :
    r.concerns (Fin.ofNat 16 slot.toNat) = true ↔ r.binding.val = slot.toNat ∨ ∃ p, r.staged = some p ∧ p.origin.val = slot.toNat := by
  have index : (Fin.ofNat 16 slot.toNat).val = slot.toNat := Nat.mod_eq_of_lt (Nat.lt_succ_of_le le)
  simp only [VoiceRecord.concerns, Bool.or_eq_true, beq_iff_eq, Fin.ext_iff, index, Option.any_eq_true]

/-- R48, R137: each voice after the load and the test of every sound condition. -/
theorem State.planLoaded_tests (s : State) (slot : Byte) (b : PlanBytes) (adoption : Byte) (i : Fin 4) :
    s.Tests (s.loadedVoice slot b adoption i) ((s.planLoaded slot b adoption).retest.voices.get i) := by
  have sounds (r : RenderRecord) : (s.planLoaded slot b adoption).soundCondition r = s.soundCondition r :=
    State.soundCondition_congr rfl rfl rfl r
  rw [State.retest_get, sounds, State.planLoaded, State.stageLoad, Quad.mapIdx_get]
  exact s.tests_retest _

end

/-- Settles O21: the checks, then each voice by whether the load concerns it and whether it adopts at once. -/
theorem loadplanStoresAndStages : Obligations.LoadplanStoresAndStages := by
  refine ⟨⟨rfl, rfl, rfl, rfl⟩, fun s slot b adoption quiet => ?_⟩
  intro x amount mode present ok plan
  have checks : ok ↔ LoadplanInRange slot b adoption :=
    ⟨fun ⟨inSlot, code, scalar, chordal, fixed, drone, low, high, glide, level, fallback, inAdoption⟩ =>
        ⟨inSlot, ⟨code, ⟨scalar, chordal, fixed, drone⟩, ⟨low, high, glide, level⟩, fallback⟩, inAdoption⟩,
      fun ⟨inSlot, ⟨code, ⟨scalar, chordal, fixed, drone⟩, ⟨low, high, glide, level⟩, fallback⟩, inAdoption⟩ =>
        ⟨inSlot, code, scalar, chordal, fixed, drone, low, high, glide, level, fallback, inAdoption⟩⟩
  refine ⟨fun refused => quiet.exec_loadplan (State.answerLoadplan_refuses (mt checks.mpr refused)), fun passed => ?_⟩
  refine ⟨(s.planLoaded slot b adoption).retest.voices, quiet.exec_loadplan (State.answerLoadplan_loads (checks.mp passed)),
    fun i => ⟨s.loadedVoice slot b adoption i, ?_⟩⟩
  intro v w staging concerned now
  have tests : s.Tests (s.loadedVoice slot b adoption i) w := s.planLoaded_tests slot b adoption i
  have concerns : v.res.concerns (Fin.ofNat 16 slot.toNat) = true ↔ concerned := v.res.concerns_iff slot (checks.mp passed).slot
  obtain ⟨res, mark⟩ := tests.res_hasTarget
  refine ⟨tests, fun apart => if_neg (mt concerns.mp apart), fun meets waits => ?_, fun meets adopts => ?_⟩
  · exact (if_pos (concerns.mpr meets)).trans (Voice.stage_waits (by simpa [now] using waits))
  · have adopted : v.Adopts (s.planStored slot b).surroundings i staging (s.loadedVoice slot b adoption i) := by
      rw [State.loadedVoice, if_pos (concerns.mpr meets)]
      exact Voice.stage_now (by simpa [now] using adopts)
    refine ⟨adopted, fun inRange => ?_⟩
    rw [mark, res]
    exact adopted.hasTarget (inRange.marked i)

end Sys2Proof.Machine

/-! ## The read commands (R51, R74, R108, R128, R144, R157, R180) -/

namespace Sys2Proof.Machine

/-! ### Numbers in reply data (R166) -/

theorem natBytes_three (n : Nat) : natBytes 3 n = [BitVec.ofNat 8 (n / 65536), BitVec.ofNat 8 (n / 256), BitVec.ofNat 8 n] := by
  simp [natBytes, Nat.div_div_eq_div_mul]

/-- A byte of a number and of an integer that agree in their low eight bits. -/
theorem ofNat_eq_ofInt {n : Nat} {x : Int} (h : (n : Int) % 256 = x % 256) : BitVec.ofNat 8 n = BitVec.ofInt 8 x := by
  apply BitVec.eq_of_toNat_eq
  simp only [BitVec.toNat_ofNat, BitVec.toNat_ofInt]
  omega

theorem intBytes_one (x : Int) : intBytes 1 x = [BitVec.ofInt 8 x] := by
  have low : BitVec.ofNat 8 (x % 256).toNat = BitVec.ofInt 8 x := ofNat_eq_ofInt (by omega)
  exact congrArg (fun b => [b]) low

theorem intBytes_two (x : Int) : intBytes 2 x = [BitVec.ofInt 8 (x / 256), BitVec.ofInt 8 x] := by
  have high : BitVec.ofNat 8 ((x % 65536).toNat / 256) = BitVec.ofInt 8 (x / 256) := ofNat_eq_ofInt (by omega)
  have low : BitVec.ofNat 8 (x % 65536).toNat = BitVec.ofInt 8 x := ofNat_eq_ofInt (by omega)
  simp [intBytes, natBytes, high, low]

theorem intBytes_three (x : Int) : intBytes 3 x = [BitVec.ofInt 8 (x / 65536), BitVec.ofInt 8 (x / 256), BitVec.ofInt 8 x] := by
  have high : BitVec.ofNat 8 ((x % 16777216).toNat / 65536) = BitVec.ofInt 8 (x / 65536) := ofNat_eq_ofInt (by omega)
  have middle : BitVec.ofNat 8 ((x % 16777216).toNat / 256) = BitVec.ofInt 8 (x / 256) := ofNat_eq_ofInt (by omega)
  have low : BitVec.ofNat 8 (x % 16777216).toNat = BitVec.ofInt 8 x := ofNat_eq_ofInt (by omega)
  simp [intBytes, natBytes_three, high, middle, low]

/-- R166, Table 3.4: the bytes of a plan record. -/
theorem planBytes_eq (p : Plan) : planBytes p =
    [modeByte p.mode, BitVec.ofInt 8 p.amount, BitVec.ofNat 8 p.low, BitVec.ofNat 8 p.high, if p.follow then 0#8 else 1#8,
      BitVec.ofNat 8 p.glide, BitVec.ofNat 8 p.level] ++ optBytes 1 (fun k => [BitVec.ofInt 8 k]) p.fallback := by
  rw [planBytes, intBytes_one, show intBytes 1 = fun k => [BitVec.ofInt 8 k] from funext intBytes_one]
  rfl

/-! ### READTABLE (R51) -/

section
variable {s : State} {slot : Byte}

theorem State.answerReadtable_scale (h : slot.toNat ≤ 7) : s.answerReadtable 0#8 slot =
    (s, .done, memberBytes (s.tables.scales.getD slot.toNat ⟨0#12, .parallel⟩).members ++
      [ruleByte (s.tables.scales.getD slot.toNat ⟨0#12, .parallel⟩).rule]) := by
  have index : (Fin.ofNat 8 slot.toNat).val = slot.toNat := Nat.mod_eq_of_lt (Nat.lt_succ_of_le h)
  simp only [State.answerReadtable, (readFin_reads 7 slot).inside h, index, if_true]

theorem State.answerReadtable_shape (h : slot.toNat ≤ 15) :
    s.answerReadtable 1#8 slot = (s, .done, memberBytes (s.tables.shapes.getD slot.toNat 0#12)) := by
  have index : (Fin.ofNat 16 slot.toNat).val = slot.toNat := Nat.mod_eq_of_lt (Nat.lt_succ_of_le h)
  have code : (1#8 : Byte) ≠ 0#8 := by decide
  simp only [State.answerReadtable, (readFin_reads 15 slot).inside h, index, if_neg code, if_true]

theorem State.answerReadtable_plan (h : slot.toNat ≤ 15) :
    s.answerReadtable 2#8 slot = (s, .done, planBytes (s.tables.plans.getD slot.toNat planOff)) := by
  have index : (Fin.ofNat 16 slot.toNat).val = slot.toNat := Nat.mod_eq_of_lt (Nat.lt_succ_of_le h)
  have codes : (2#8 : Byte) ≠ 0#8 ∧ (2#8 : Byte) ≠ 1#8 := by decide
  simp only [State.answerReadtable, (readFin_reads 15 slot).inside h, index, if_neg codes.1, if_neg codes.2, if_true]

theorem State.answerReadtable_outside {table : Byte}
    (h : 2 < table.toNat ∨ (table = 0#8 ∧ 7 < slot.toNat) ∨ (table ≠ 0#8 ∧ 15 < slot.toNat)) :
    s.answerReadtable table slot = (s, .range, []) := by
  obtain rfl | rfl | rfl | ⟨zero, one, two, _⟩ := Byte.three_codes table
  · have above : ¬slot.toNat ≤ 7 := by simpa using h
    simp [State.answerReadtable, (readFin_reads 7 slot).outside above, answer]
  · have above : ¬slot.toNat ≤ 15 := by simpa using h
    simp [State.answerReadtable, (readFin_reads 15 slot).outside above, answer]
  · have above : ¬slot.toNat ≤ 15 := by simpa using h
    simp [State.answerReadtable, (readFin_reads 15 slot).outside above, answer]
  · simp [State.answerReadtable, zero, one, two, answer]

end

/-! ### READCUE and READVOICE (R128, R144, R157) -/

/-- R157: what READCUE answers before a step's record. -/
def State.cueHead (s : State) : List Byte :=
  [byteOf s.tables.cueLength, onOffByte s.tables.wrap] ++ cursorBytes s.cue ++ natBytes 2 s.cue.counter ++
    [if s.cue.running then 0#8 else 1#8] ++ advanceBytes s.cue.entered

section
variable {s : State} {k : Byte}

theorem State.answerReadcue_head (s : State) (k : Byte) : s.answerReadcue 0#8 k = (s, .done, s.cueHead) := rfl

theorem State.answerReadcue_marked (s : State) (k : Byte) :
    s.answerReadcue 1#8 k = match readFin 64 k with
      | some j => (s, .done, s.cueHead ++ cueStepBytes (s.tables.cueStep j))
      | none => (s, .range, []) := rfl

theorem State.answerReadcue_step (h : k.toNat ≤ 63) :
    s.answerReadcue 1#8 k = (s, .done, s.cueHead ++ cueStepBytes (s.tables.cues.getD k.toNat cueStepEmpty)) := by
  have index : (Fin.ofNat 64 k.toNat).val = k.toNat := Nat.mod_eq_of_lt (Nat.lt_succ_of_le h)
  rw [State.answerReadcue_marked, (readFin_reads 63 k).inside h]
  simp only [Tables.cueStep, index]

theorem State.answerReadcue_outside (h : 63 < k.toNat) : s.answerReadcue 1#8 k = (s, .range, []) := by
  rw [State.answerReadcue_marked, (readFin_reads 63 k).outside (Nat.not_le.mpr h)]

theorem State.answerReadvoice_outside (h : 3 < k.toNat) : s.answerReadvoice k = (s, .range, []) := by
  rw [State.answerReadvoice, (readFin_reads 3 k).outside (Nat.not_le.mpr h)]
  rfl

end

/-! ### The six commands -/

/-- R167 to R169: with nothing due, a command that leaves the state changes a reply slot alone. -/
theorem State.Quiet.reads {s : State} (h : s.Quiet) (c : Cmd) (src : Manual) {body : State → Answer} {code : ReplyCode} {data : List Byte}
    (answers : body s = (s, code, data)) (permitted : src ∈ c.sources := by cases src <;> decide) :
    (.next (s.command src c body) : Host.Outcome State Fault Refusal) = .next (s.reply src ⟨c.code, code, data⟩) :=
  congrArg Host.Outcome.next (h.command_answers permitted answers)

/-- Settles O23: each read answers the model's bytes, and the obligation's codings of a number, a code and an item are those bytes. -/
theorem readsChangeOnlyTheReplySlot : Obligations.ReadsChangeOnlyTheReplySlot := by
  refine ⟨fun s src table slot quiet => ?_, fun s src quiet => ?_⟩
  · intro replied scale shape plan
    have reads {code : ReplyCode} {data : List Byte} (answers : s.answerReadtable table slot = (s, code, data)) :
        exec (.readtable src table slot) s = replied code data := quiet.reads .readtable src answers
    refine ⟨?_, ?_, ?_, fun outside => reads (State.answerReadtable_outside outside)⟩
    · rintro rfl inside
      exact reads (State.answerReadtable_scale inside)
    · rintro rfl inside
      exact reads (State.answerReadtable_shape inside)
    · rintro rfl inside
      rw [reads (State.answerReadtable_plan inside), planBytes_eq]
      simp only [plan]
      cases (s.tables.plans.getD slot.toNat planOff).fallback <;> rfl
  intro replied n8 n16 n24 z8 z16 z24 mark holder auto owner bass chord condition key scale chordField keyHead scaleHead chordHead hush cursor
    advance context status keytrk plan shift voice cue optional step
  -- The codings of single items, each a function of the model.
  have n24_eq : n24 = natBytes 3 := funext fun n => (natBytes_three n).symm
  have z8_eq (x : Int) : [z8 x] = intBytes 1 x := (intBytes_one x).symm
  have z16_eq : z16 = intBytes 2 := funext fun x => (intBytes_two x).symm
  have z24_eq : z24 = intBytes 3 := funext fun x => (intBytes_three x).symm
  have holder_eq : holder = holderByte := funext fun m => by rcases m with _ | _ | _ | _ <;> rfl
  have auto_eq : auto = Auto.sourceCode := funext fun a => by cases a <;> rfl
  have owner_eq : owner = Owner.sourceCode := funext fun o => by rcases o with _ | (_ | _ | _) | (_ | _ | _) <;> rfl
  have chord_eq : chord = chordBytes := funext fun c => by rcases c with _ | ⟨_, _, _ | _⟩ <;> rfl
  have condition_eq : condition = conditionByte := funext fun c => by cases c <;> rfl
  have advance_eq : advance = advanceBytes := funext fun a => by cases a <;> rfl
  have cursor_eq : cursor = cursorBytes s.cue := by simp only [cursor, cursorBytes]; cases s.cue.cursor <;> rfl
  have shift_eq : shift = optBytes 2 (intBytes 2) := funext fun x => by
    cases x with
    | none => rfl
    | some d => exact congrArg (1#8 :: ·) (intBytes_two d).symm
  have plan_eq : plan = planBytes := funext fun p => by
    simp only [plan, planBytes_eq]
    cases p.fallback <;> rfl
  have keyHead_eq : keyHead = fieldData s.ctx.key fun x => [finByte x] := by rw [fieldData, ← owner_eq, ← holder_eq]; rfl
  have scaleHead_eq : scaleHead = fieldData s.ctx.scale fun x => [finByte x] := by rw [fieldData, ← owner_eq, ← holder_eq]; rfl
  have chordHead_eq : chordHead = fieldData s.ctx.chord chordBytes := by rw [fieldData, ← owner_eq, ← holder_eq, ← chord_eq]
  have hush_eq : hush = hushBytes s.ctx.hush := by rw [hushBytes, ← holder_eq]; rfl
  have step_eq : step = cueStepBytes := funext fun c => by
    obtain ⟨k, x, v, _, _, _, a⟩ := c
    have optional_eq (n : Nat) (y : Option (Fin n)) : optional (y.map Fin.val) = optBytes 1 (fun z => [finByte z]) y := by cases y <;> rfl
    simp only [step, cueStepBytes, optional_eq, advance_eq, List.append_assoc]
    congr 3
    · rcases v with _ | _ | ⟨_, _, _ | _⟩ <;> rfl
  have cue_eq : cue = s.cueHead := by rw [State.cueHead, ← cursor_eq, ← advance_eq]; rfl
  -- The data of each command, item by item.
  have context_eq : s.answerReadcontext = (s, .done, context) := by
    simp only [State.answerReadcontext, fieldBytes, context, keyHead_eq, scaleHead_eq, chordHead_eq, hush_eq, condition_eq, auto_eq, chord_eq,
      List.append_assoc]
    congr 4
    · cases s.ctx.key.shadow <;> rfl
    congr 2
    · cases s.ctx.scale.shadow <;> rfl
    congr 2
    · cases s.ctx.chord.shadow <;> rfl
  have status_eq : s.answerReadstatus = (s, .done, status) := by
    simp only [State.answerReadstatus, fieldSummary, status, keyHead_eq, scaleHead_eq, chordHead_eq, hush_eq, condition_eq, cursor_eq, n24_eq, z8_eq,
      List.append_assoc]
    rw [← List.append_assoc [outputByte _], ← List.append_assoc [deciderByte _], ← natBytes_toNat]
    congr 3
    · rcases s.fault.output with _ | (_ | _) | _ | _ <;> rfl
    congr 5
    cases s.decider.state <;> rfl
  have keytrk_eq : s.answerReadkeytrk = (s, .done, keytrk) := by
    simp only [State.answerReadkeytrk, keytrk, n24_eq, z24_eq, List.append_assoc, accTotal, ← List.sum_eq_foldl]
    congr 8
    cases s.key.evaluation with
    | none => rfl
    | some e =>
      simp only [optBytes, evaluationBytes, List.append_assoc]
      congr 6
  have voice_eq (v : Voice) : voice v = voiceBytes v.res ++ renderBytes v.ren s.renderer := by
    simp only [voice, voiceBytes, renderBytes, plan_eq, shift_eq, n24_eq, z16_eq, List.append_assoc, List.cons_append, List.nil_append]
    congr 3
    · cases v.res.staged <;> rfl
    congr 1
    · cases v.res.target <;> rfl
    congr 2
    · rcases v.res.basis with _ | ⟨path, fold⟩
      · rfl
      · cases path <;> cases fold <;> rfl
    congr 5
    cases v.ren.glide <;> rfl
  have cueRead (k : Byte) : s.answerReadcue 0#8 k = (s, .done, cue) := cue_eq ▸ s.answerReadcue_head k
  have stepRead (k : Byte) (le : k.toNat ≤ 63) :
      s.answerReadcue 1#8 k = (s, .done, cue ++ step (s.tables.cues.getD k.toNat ⟨none, none, none, 0#8, 0#8, [], .manual⟩)) := by
    rw [cue_eq, step_eq]
    exact State.answerReadcue_step le
  have voiceRead (i : Byte) (le : i.toNat ≤ 3) : s.answerReadvoice i = (s, .done, voice (s.voices.get (Fin.ofNat 4 i.toNat))) := by
    rw [State.answerReadvoice, (readFin_reads 3 i).inside le, voice_eq]
  exact ⟨quiet.reads .readstatus src status_eq, quiet.reads .readcontext src context_eq, quiet.reads .readkeytrk src keytrk_eq,
    fun i le => quiet.reads .readvoice src (voiceRead i le), fun i above => quiet.reads .readvoice src (State.answerReadvoice_outside above),
    fun k => quiet.reads .readcue src (cueRead k), fun k le => quiet.reads .readcue src (stepRead k le),
    fun k above => quiet.reads .readcue src (State.answerReadcue_outside above)⟩

end Sys2Proof.Machine

/-! ## The tables, voices, ports and fault monitor at power-on (R39, R43, R49, R110, R129, R145, R161, R164, R165, R169, R174, R178) -/

namespace Sys2Proof.Machine

/-- R110: the four voices at reset, each under the slot that it is bound to. -/
theorem voicesAtReset_get {plans : List Plan} {i : Fin 4} {k : Fin 16}
    (bound : (i, k) ∈ [((0 : Fin 4), (0 : Fin 16)), (1, 1), (2, 4), (3, 5)]) : (voicesAtReset plans).get i = .atReset k plans := by
  simp only [List.mem_cons, Prod.mk.injEq, List.not_mem_nil, or_false] at bound
  obtain ⟨rfl, rfl⟩ | ⟨rfl, rfl⟩ | ⟨rfl, rfl⟩ | ⟨rfl, rfl⟩ := bound <;> rfl

/-- Table 3.3: the shape slots from 10 on are empty. -/
theorem shapesAtReset_empty {slot : Nat} (low : 10 ≤ slot) (high : slot < 16) : shapesAtReset[slot]? = some 0#12 := by
  interval_cases slot <;> rfl

/-- Table 3.5: the plan slots from 8 on are OFF. -/
theorem plansAtReset_off {slot : Nat} (low : 8 ≤ slot) (high : slot < 16) : plansAtReset[slot]? = some planOff := by
  interval_cases slot <;> rfl

/-- Settles O4: every value is read off the power-on state; the ranges of empty slots and the four voices have lemmas of their own. -/
theorem powerOnTablesVoicesAndPorts : Obligations.PowerOnTablesVoicesAndPorts := by
  intro s sa
  refine ⟨_, rfl, ?_⟩
  intro scale shape plan
  -- Table 3.1: the scale slots.
  refine ⟨rfl, ⟨_, rfl, by decide⟩, ⟨_, rfl, by decide⟩, ⟨_, rfl, by decide⟩, ⟨_, rfl, by decide⟩, ⟨_, rfl, by decide⟩, ⟨_, rfl, by decide⟩,
    ⟨_, rfl, by decide⟩, ⟨_, rfl, by decide⟩, ?_⟩
  -- Table 3.3: the shape slots.
  refine ⟨rfl, ⟨_, rfl, by decide⟩, ⟨_, rfl, by decide⟩, ⟨_, rfl, by decide⟩, ⟨_, rfl, by decide⟩, ⟨_, rfl, by decide⟩, ⟨_, rfl, by decide⟩,
    ⟨_, rfl, by decide⟩, ⟨_, rfl, by decide⟩, ⟨_, rfl, by decide⟩, ⟨_, rfl, by decide⟩,
    fun slot low high => ⟨_, shapesAtReset_empty low high, by decide⟩, ?_⟩
  -- Table 3.5: the plan library; then the cue list (R145).
  refine ⟨rfl, rfl, rfl, rfl, rfl, rfl, rfl, rfl, rfl, fun slot low high => plansAtReset_off low high, List.length_replicate,
    fun c mem => List.eq_of_mem_replicate mem, rfl, rfl, ?_⟩
  -- The voices, the renderer and the context copy (R110, R129); the ports (R161 to R169) and the fault monitor (R174, R178).
  refine ⟨fun i k bound => ?_, rfl, rfl, rfl, rfl, rfl, rfl, rfl, rfl, fun m => by cases m <;> rfl, rfl, rfl⟩
  have voice : (State.powerOn sa).voices.get i = .atReset k plansAtReset := voicesAtReset_get bound
  exact ⟨congrArg Voice.res voice, congrArg Voice.ren voice⟩

end Sys2Proof.Machine
